-- ==== Sys2Proof/Word.lean ====
section
/-!
DEFINITION. The words of CLKMON: register words, command words, response words, the 64-bit accumulator.
Numbers of bits follow 00_scope.md R8, R11 and 30_encoding.md R81, R82.
-/

namespace Sys2Proof

/-- A register word, an argument, a frequency in hertz, or a 32-bit register address (R8, R37). -/
abbrev Word := BitVec 32

/-- The resolver's accumulator `acc` (10_state.md R24, decision D12). -/
abbrev Wide := BitVec 64

/-- A command word `cw[67:0]` (30_encoding.md R81). -/
abbrev CommandWord := BitVec 68

/-- A response word `rw[34:0]` (30_encoding.md R82). -/
abbrev ResponseWord := BitVec 35

/-- A one-bit answer as a response value: 1 or 0 (`zext_32` of a bit, 00_scope.md R11). -/
def boolWord (b : Bool) : Word := if b then 1#32 else 0#32

end Sys2Proof
end

