-- ==== Sys2Proof/Syntax.lean ====
section
/-!
DEFINITION. The operations of CLKMON, one constructor per row of spec/opcode_table.json (30_encoding.md R85, R88),
each carrying exactly the argument fields it reads (R87, R89), and their assembler form (R93).
-/

namespace Sys2Proof

/-- A decoded command word. A field an operation does not read is no argument of its constructor (R89). -/
inductive Instr where
  /-- 0x1: resolve the frequency of node `a` (R111). -/
  | resolve (a : Word)
  /-- 0x2: set oscillator `a`'s stored frequency to `b` (R125). -/
  | oscSet (a b : Word)
  /-- 0x3: is PLL `a` locked? (R141) -/
  | pllLocked (a : Word)
  /-- 0x4: is PLL `a` bypassed? (R142) -/
  | pllBypassed (a : Word)
  /-- 0x5: clear the latches of mask `a` (R144). -/
  | statClear (a : Word)
  /-- 0x6: open the gate of node `a` (R147). -/
  | clkEnable (a : Word)
  /-- 0x7: close the gate of node `a` (R148). -/
  | clkDisable (a : Word)
  /-- 0x8: is the gate of node `a` open? (R149) -/
  | clkEnabled (a : Word)
  /-- 0x9: wait for the busy bit to clear (R171). -/
  | settleWait
  /-- 0x0: reserved opcode (R88). -/
  | reserved0
  /-- 0xA: reserved opcode (R88). -/
  | reservedA
  /-- 0xB: reserved opcode (R88). -/
  | reservedB
  /-- 0xC: reserved opcode (R88). -/
  | reservedC
  /-- 0xD: reserved opcode (R88). -/
  | reservedD
  /-- 0xE: reserved opcode (R88). -/
  | reservedE
  /-- 0xF: reserved opcode (R88). -/
  | reservedF
deriving DecidableEq, Repr

/-- The mnemonic of the instruction's row of spec/opcode_table.json. -/
def Instr.mnemonic : Instr → String
  | .resolve _ => "RESOLVE"
  | .oscSet _ _ => "OSC_SET"
  | .pllLocked _ => "PLL_LOCKED"
  | .pllBypassed _ => "PLL_BYPASSED"
  | .statClear _ => "STAT_CLEAR"
  | .clkEnable _ => "CLK_ENABLE"
  | .clkDisable _ => "CLK_DISABLE"
  | .clkEnabled _ => "CLK_ENABLED"
  | .settleWait => "SETTLE_WAIT"
  | .reserved0 => "RESERVED_0"
  | .reservedA => "RESERVED_A"
  | .reservedB => "RESERVED_B"
  | .reservedC => "RESERVED_C"
  | .reservedD => "RESERVED_D"
  | .reservedE => "RESERVED_E"
  | .reservedF => "RESERVED_F"

/-- The arguments an instruction reads, in assembler order (R93). -/
def Instr.arguments : Instr → List Word
  | .resolve a => [a]
  | .oscSet a b => [a, b]
  | .pllLocked a => [a]
  | .pllBypassed a => [a]
  | .statClear a => [a]
  | .clkEnable a => [a]
  | .clkDisable a => [a]
  | .clkEnabled a => [a]
  | .settleWait => []
  | .reserved0 => []
  | .reservedA => []
  | .reservedB => []
  | .reservedC => []
  | .reservedD => []
  | .reservedE => []
  | .reservedF => []

/-- The assembler text of an operation: the mnemonic, then its arguments in decimal, separated by commas (R93). -/
def Instr.assembly (i : Instr) : String :=
  match i.arguments.map (fun w => toString w.toNat) with
  | [] => i.mnemonic
  | args => i.mnemonic ++ " " ++ ", ".intercalate args

end Sys2Proof
end

