-- ==== Sys2Proof/Decode.lean ====
section
/-!
DEFINITION. Decoding and encoding of command words (30_encoding.md R81, R85, R86, R88, R89), and the word the host
of this pipeline numbers as spec/opcode_table.json numbers it.
-/

namespace Sys2Proof

/-- `cw[67:64]`, the opcode (R81). -/
def opField (cw : CommandWord) : BitVec 4 := cw.extractLsb' 64 4

/-- `cw[63:32]`, the first argument (R81). -/
def aField (cw : CommandWord) : Word := cw.extractLsb' 32 32

/-- `cw[31:0]`, the second argument (R81). -/
def bField (cw : CommandWord) : Word := cw.extractLsb' 0 32

/-- The command word with the given fields (R81). -/
def packCommand (op : BitVec 4) (a b : Word) : CommandWord := (op ++ a) ++ b

/-- The operation that the opcode `op` selects, with arguments `a` and `b`: the opcode map of R85 and R88. -/
def decodeFields (op : BitVec 4) (a b : Word) : Instr :=
  match op.toNat with
  | 0x0 => .reserved0
  | 0x1 => .resolve a
  | 0x2 => .oscSet a b
  | 0x3 => .pllLocked a
  | 0x4 => .pllBypassed a
  | 0x5 => .statClear a
  | 0x6 => .clkEnable a
  | 0x7 => .clkDisable a
  | 0x8 => .clkEnabled a
  | 0x9 => .settleWait
  | 0xA => .reservedA
  | 0xB => .reservedB
  | 0xC => .reservedC
  | 0xD => .reservedD
  | 0xE => .reservedE
  | _ => .reservedF

/-- Decoding is total and by the opcode alone (R86). -/
def decode (cw : CommandWord) : Instr := decodeFields (opField cw) (aField cw) (bField cw)

/-- Why a string of bits is not a command word. -/
inductive DecodeError where
  /-- It has a bit at position 68 or above: a command word is 68 bits (R81, R92). -/
  | longerThanCommandWord
deriving DecidableEq, Repr

/-- Decode the low `nbits` bits of `w`, every higher bit being 0. -/
def decodeBits (nbits w : Nat) : Except DecodeError Instr :=
  if w % 2 ^ nbits < 2 ^ 68 then .ok (decode (BitVec.ofNat 68 (w % 2 ^ nbits)))
  else .error .longerThanCommandWord

/-- The instruction the decoder reads from an instruction whose bits are `w`, numbered as the table numbers them:
the one word of a command is 68 bits and bit 0 is its least significant bit. -/
def decodeTableWord (nbits w : Nat) : Option Instr :=
  match decodeBits nbits w with
  | .ok i => some i
  | .error _ => none

/-- The opcode of an instruction (R85, R88). -/
def Instr.opcode : Instr → BitVec 4
  | .reserved0 => 0x0#4
  | .resolve _ => 0x1#4
  | .oscSet _ _ => 0x2#4
  | .pllLocked _ => 0x3#4
  | .pllBypassed _ => 0x4#4
  | .statClear _ => 0x5#4
  | .clkEnable _ => 0x6#4
  | .clkDisable _ => 0x7#4
  | .clkEnabled _ => 0x8#4
  | .settleWait => 0x9#4
  | .reservedA => 0xA#4
  | .reservedB => 0xB#4
  | .reservedC => 0xC#4
  | .reservedD => 0xD#4
  | .reservedE => 0xE#4
  | .reservedF => 0xF#4

/-- The first argument field an assembler writes: zero where the operation does not read it (R89). -/
def Instr.fieldA : Instr → Word
  | .resolve a => a
  | .oscSet a _ => a
  | .pllLocked a => a
  | .pllBypassed a => a
  | .statClear a => a
  | .clkEnable a => a
  | .clkDisable a => a
  | .clkEnabled a => a
  | .settleWait => 0#32
  | .reserved0 => 0#32
  | .reservedA => 0#32
  | .reservedB => 0#32
  | .reservedC => 0#32
  | .reservedD => 0#32
  | .reservedE => 0#32
  | .reservedF => 0#32

/-- The second argument field an assembler writes: zero but for OSC_SET (R89). -/
def Instr.fieldB : Instr → Word
  | .oscSet _ b => b
  | .resolve _ => 0#32
  | .pllLocked _ => 0#32
  | .pllBypassed _ => 0#32
  | .statClear _ => 0#32
  | .clkEnable _ => 0#32
  | .clkDisable _ => 0#32
  | .clkEnabled _ => 0#32
  | .settleWait => 0#32
  | .reserved0 => 0#32
  | .reservedA => 0#32
  | .reservedB => 0#32
  | .reservedC => 0#32
  | .reservedD => 0#32
  | .reservedE => 0#32
  | .reservedF => 0#32

/-- The command word an assembler writes for an instruction (R81, R89). -/
def encode (i : Instr) : CommandWord := packCommand i.opcode i.fieldA i.fieldB

end Sys2Proof
end

