-- ==== Sys2Proof/Config.lean ====
section
/-!
DEFINITION. What an implementation fixes: the static tables of 10_state.md section 2 and the parameters of
00_scope.md R9, the reference configuration REF (10_state.md R35, R36), and the free values.
A configuration is plain data. The machine's state holds one (notes/assumptions/1.md), so that a statement about
every state is a statement about every configuration (00_scope.md R10).
-/

namespace Sys2Proof

/-- The three PLL indices: 0 primary, 1 peripheral, 2 memory (00_scope.md R8, 30_encoding.md R87). -/
inductive PllId where
  | primary
  | peripheral
  | memory
deriving DecidableEq, Repr, Inhabited

/-- One thing for each of the three PLLs (00_scope.md R8: "exactly three" instances). -/
structure PerPll (α : Type) where
  primary : α
  peripheral : α
  memory : α
deriving DecidableEq, Repr

/-- The entry of PLL `p`. -/
def PerPll.get {α : Type} (t : PerPll α) : PllId → α
  | .primary => t.primary
  | .peripheral => t.peripheral
  | .memory => t.memory

/-- The table with PLL `p`'s entry replaced. -/
def PerPll.set {α : Type} (t : PerPll α) : PllId → α → PerPll α
  | .primary, a => { t with primary := a }
  | .peripheral, a => { t with peripheral := a }
  | .memory, a => { t with memory := a }

/-- The three entries in index order. -/
def PerPll.toList {α : Type} (t : PerPll α) : List α := [t.primary, t.peripheral, t.memory]

/-- Every PLL index, in order. -/
def PllId.all : List PllId := [.primary, .peripheral, .memory]

/-- A field descriptor `Field (addr, lsb, width)` (10_state.md R31). -/
structure Field where
  addr : Word
  lsb : Nat
  width : Nat
deriving DecidableEq, Repr

/-- A gate descriptor `Gate (addr, bit)` (10_state.md R32). -/
structure Gate where
  addr : Word
  bit : Nat
deriving DecidableEq, Repr

/-- A menu: which multiplexer value selects which node id; a value it does not list is unknown (10_state.md R33). -/
abbrev Menu := List (Nat × Nat)

/-- A node descriptor of the Clock Topology Table (10_state.md R30). -/
inductive Node where
  | osc (oscIndex : Nat)
  | pll (pllIndex : PllId) (mux : Field) (menu : Menu) (numer denom : Field)
  | derived (mux : Field) (menu : Menu) (div : Field) (gate : Option Gate)
deriving DecidableEq, Repr

/-- One record of the oscillator table: frequency, minimum, maximum in hertz, and the active flag
(10_state.md R22). -/
structure Oscillator where
  freq : Word
  min : Word
  max : Word
  active : Bool
deriving DecidableEq, Repr

/-- The lifecycle states of a PLL (42_settle_and_lifecycle.md R175). -/
inductive Life where
  | bypassed
  | reconfiguring
  | locking
  | locked
deriving DecidableEq, Repr, Inhabited

/-- Everything 00_scope.md R9 leaves to the implementation. `N_NODES` is the length of `topo`, `N_OSC` the length
of `oscDefault`. -/
structure Config where
  /-- `TOPO` -/
  topo : List Node
  /-- `PLL_NODE[p]` -/
  pllNode : PerPll Nat
  /-- `OSC_DEFAULT[i]` -/
  oscDefault : List Oscillator
  /-- `CM_BASE` -/
  base : Word
  /-- `ADDR_CTRL` -/
  ctrlAddr : Word
  /-- `BIT_SAFEMODE` -/
  safemodeBit : Nat
  /-- `ADDR_BYPASS` -/
  bypassAddr : Word
  /-- `BIT_BYP[p]` -/
  bypassBit : PerPll Nat
  /-- `ADDR_STATUS` -/
  statusAddr : Word
  /-- `BIT_LOCKED[p]` -/
  lockedBit : PerPll Nat
  /-- `ADDR_STATCLR` -/
  statclrAddr : Word
  /-- `BIT_ACH[p]` -/
  achBit : PerPll Nat
  /-- `BIT_LOST[p]` -/
  lostBit : PerPll Nat
  /-- `ADDR_STAT` -/
  statAddr : Word
  /-- `BIT_BUSY` -/
  busyBit : Nat
  /-- `SETTLE_BOUND` -/
  settleBound : Nat
  /-- `MAX_DEPTH` -/
  maxDepth : Nat
deriving DecidableEq, Repr

/-- `N_NODES` (00_scope.md R9). -/
def Config.nNodes (c : Config) : Nat := c.topo.length

/-- `N_OSC` (00_scope.md R9). -/
def Config.nOsc (c : Config) : Nat := c.oscDefault.length

/-- REF's primary, peripheral and memory PLL nodes share one layout over registers of their own
(10_state.md R35). -/
def refPll (p : PllId) (addr : Word) : Node :=
  .pll p ⟨addr, 24, 2⟩ [(0, 0), (1, 1), (2, 2)] ⟨addr, 0, 12⟩ ⟨addr, 16, 6⟩

/-- The reference configuration REF (10_state.md R35, R36; 00_scope.md R9), with the settle bound 4 that the
vectors use (decision D19; DESIGN CHOICE, notes/assumptions/2.md). -/
def Config.ref : Config where
  topo :=
    [ .osc 0,
      .osc 1,
      .osc 2,
      refPll .primary 0x10000010#32,
      refPll .peripheral 0x10000014#32,
      refPll .memory 0x10000018#32,
      .derived ⟨0x10000020#32, 8, 2⟩ [(0, 3), (1, 4), (2, 2)] ⟨0x10000020#32, 0, 8⟩ (some ⟨0x1000001C#32, 0⟩) ]
  pllNode := ⟨3, 4, 5⟩
  oscDefault :=
    [ ⟨25000000#32, 10000000#32, 50000000#32, true⟩,
      ⟨25000000#32, 10000000#32, 50000000#32, true⟩,
      ⟨0#32, 0#32, 100000000#32, false⟩ ]
  base := 0x10000000#32
  ctrlAddr := 0x10000000#32
  safemodeBit := 0
  bypassAddr := 0x10000004#32
  bypassBit := ⟨0, 1, 2⟩
  statusAddr := 0x10000008#32
  lockedBit := ⟨6, 7, 8⟩
  statclrAddr := 0x10000008#32
  achBit := ⟨0, 1, 2⟩
  lostBit := ⟨3, 4, 5⟩
  statAddr := 0x1000000C#32
  busyBit := 0
  settleBound := 4
  maxDepth := 3

/-- FREE VALUE: the word a register of the register space holds at launch, by address. The spec gives none and
forbids assuming zero (10_state.md R38, 70_reset_and_hazards.md R243, U2; notes/assumptions/4.md). -/
opaque Config.launchWord : Nat → Word

/-- FREE VALUE: the lifecycle state of each PLL at launch (42_settle_and_lifecycle.md R186, U2;
notes/assumptions/4.md). -/
opaque Config.launchLife : PllId → Life

/-- FREE VALUE: the `value` word of the n-th failure drawn (10_state.md R21, U1; notes/assumptions/7.md). -/
opaque Config.freeWord : Nat → Word

/-- FREE VALUE: a lock bit at the moment its PLL enters BYPASSED (42_settle_and_lifecycle.md R182, U3;
notes/assumptions/8.md). -/
opaque Config.freeBit : Nat → Bool

end Sys2Proof
end

