-- ==== Sys2Proof/Machine/State.lean ====
section
/-!
DEFINITION. The state of the machine as plain data: the block's registers (10_state.md section 1), its static tables
(section 2), the external register space and the PLL lifecycle (section 3; 42_settle_and_lifecycle.md R175), the
schedule of what the other agents do next (notes/assumptions/3.md), and the reset state (70_reset_and_hazards.md R241,
R243). INVENTORY.md lists each field with its rule and reset value.
-/

namespace Sys2Proof.Machine

/-- The sequencer position (10_state.md R25): IDLE or RUN. -/
inductive Phase where
  | idle
  | run
deriving DecidableEq, Repr

/-- The four failure kinds (60_exceptions.md R200). -/
inductive Failure where
  | badArgument
  | arithmeticOverflow
  | unsupportedCapability
  | timeout
deriving DecidableEq, Repr

/-- One transfer on the master port (20_memory.md R53, R54, R66). -/
inductive Event where
  | rd (addr : Word) (word : Word)
  | wr (addr : Word) (word : Word)
deriving DecidableEq, Repr

/-- A move of the clock hardware. A move that its rule does not allow in the present state does not happen. -/
inductive HwMove where
  /-- The hardware acquires lock of PLL `p`; only from LOCKING (42_settle_and_lifecycle.md R180). -/
  | lockAcquired (p : PllId)
  /-- The hardware loses lock of PLL `p`; only from LOCKED (R181). -/
  | lockLost (p : PllId)
  /-- The unconstrained lock bit of a bypassed PLL takes the value `b`; only in BYPASSED or RECONFIGURING (R182). -/
  | lockBitWanders (p : PllId) (b : Bool)
  /-- The busy bit rises; only after a write to a clock-hardware register (R184). -/
  | busyRises
  /-- The busy bit falls (R184). -/
  | busyFalls
  /-- The oracle: the register at `addr` holds `word` from now on, for no reason any rule gives (20_memory.md R67,
  U10, U12). It stands for every change the rules leave open, and for another master's write. -/
  | drive (addr : Word) (word : Word)
deriving DecidableEq, Repr

/-- What happens to the block and its surroundings between operations. -/
inductive Input where
  /-- The host presents a command word (30_encoding.md R80); with `some k`, reset is asserted during the operation,
  after `k` of its events or, where it issues fewer, before its response (70_reset_and_hazards.md R242, U13). -/
  | command (cw : CommandWord) (resetAfter : Option Nat)
  /-- The host writes a register directly (20_memory.md R61 (c)). -/
  | hostWrite (addr : Word) (word : Word)
  /-- The host reads a register directly (10_state.md R42). -/
  | hostRead (addr : Word)
  /-- The clock hardware moves between operations. -/
  | hardware (m : HwMove)
  /-- Reset is asserted while the block is IDLE (70_reset_and_hazards.md R240). -/
  | reset
deriving DecidableEq, Repr

/-- The register space: 32-bit words (20_memory.md R52), keyed by address, addresses strictly rising. An address
not listed holds the free word `Config.launchWord` (notes/assumptions/4.md). -/
abbrev Memory := List (Nat × Word)

/-- What stops the machine with a fault. All three can occur only in a walk over a configuration that is not
well-formed (93_implementation_defined.md U7: stuck, never a frequency); `step` refuses such a configuration. Safe:
the model stops where the spec gives no meaning. -/
inductive Fault where
  /-- RESOLVE: the walk went on after `MAX_DEPTH` edges (U7). Raised by the resolver. Safe. -/
  | walkTooDeep
  /-- RESOLVE: a menu entry names no node (U7). Raised by the resolver. Safe. -/
  | noSuchNode
  /-- RESOLVE: an oscillator node names no entry of the oscillator table (U7). Raised by the resolver. Safe. -/
  | noSuchOscillator
deriving DecidableEq, Repr

/-- What the model refuses. -/
inductive Refusal where
  /-- An instruction without a meaning; no arm of this model uses it. Safe. -/
  | notModelled (mnemonic : String)
  /-- A configuration that is not well-formed (10_state.md R34, 60_exceptions.md R219 (a)). Raised by `step` before
  anything runs. Safe. -/
  | malformedConfiguration
  /-- The host writes a new numerator or denominator of PLL `p` while it is LOCKING or LOCKED: illegal, and given no
  meaning (42_settle_and_lifecycle.md R183, U6). Raised by a direct host write. Safe. -/
  | illegalRatioWrite (p : PllId)
  /-- A direct host access at an address that is not a multiple of 4; such an access cannot be expressed
  (20_memory.md R51). Raised by a direct host access. Safe. -/
  | misalignedHostAccess
deriving DecidableEq, Repr

/-- The machine. -/
structure State where
  /-- The static tables; no step changes them (70_reset_and_hazards.md R241). -/
  cfg : Config
  /-- `op_r` (10_state.md R21). -/
  opR : BitVec 4
  /-- `a_r` (R21). -/
  aR : Word
  /-- `b_r` (R21). -/
  bR : Word
  /-- `status` (R21, 60_exceptions.md R201). -/
  status : BitVec 3
  /-- `value` (R21). -/
  value : Word
  /-- `phase` (R25). -/
  phase : Phase
  /-- `acc` (R24). -/
  acc : Wide
  /-- `sp` (R24). -/
  sp : Nat
  /-- `stk[0 .. MAX_DEPTH]` (R24). -/
  stk : List Nat
  /-- `iter` (R24, 60_exceptions.md R215). -/
  iter : Word
  /-- `rmw` (R24, R46 (c)). -/
  rmw : Word
  /-- The oscillator table `OSC` (R20, R22). -/
  osc : List Oscillator
  /-- The response word presented to the host for the last accepted command (30_encoding.md R80, R82;
  notes/assumptions/6.md). -/
  resp : Option ResponseWord
  /-- The register space (R37 to R45). -/
  mem : Memory
  /-- `life[p]` (42_settle_and_lifecycle.md R175). -/
  life : PerPll Life
  /-- Model's own: a clock-hardware register was written since the busy bit last fell (R184;
  notes/assumptions/10.md). -/
  disturbed : Bool
  /-- Model's own: the transfers of the operation last accepted, in order (20_memory.md R66). -/
  events : List Event
  /-- Model's own: the pending inputs, oldest first. -/
  inputs : List Input
  /-- Model's own: the hardware's moves before each coming transfer, one list a transfer (R61 (d)). -/
  hw : List (List HwMove)
  /-- Model's own: reset comes during the operation in progress, after that many further events (R242). -/
  resetIn : Option Nat
  /-- Model's own: the word the host's last direct read returned. -/
  hostWord : Option Word
  /-- Model's own: how many free values have been drawn (notes/assumptions/7.md). -/
  draws : Nat
deriving DecidableEq, Repr

/-- The block right after reset under configuration `c`, in surroundings of which nothing is known: `phase` IDLE and
the oscillator table at its defaults (R241), the register space and the lifecycle at their launch values (R243),
every unspecified register of the block at zero (DESIGN CHOICE, notes/assumptions/5.md). -/
def State.launch (c : Config) : State where
  cfg := c
  opR := 0#4
  aR := 0#32
  bR := 0#32
  status := 0#3
  value := 0#32
  phase := .idle
  acc := 0#64
  sp := 0
  stk := List.replicate (c.maxDepth + 1) 0
  iter := 0#32
  rmw := 0#32
  osc := c.oscDefault
  resp := none
  mem := []
  life := ⟨Config.launchLife .primary, Config.launchLife .peripheral, Config.launchLife .memory⟩
  disturbed := true
  events := []
  inputs := []
  hw := []
  resetIn := none
  hostWord := none
  draws := 0

/-- The machine right after reset, in the reference configuration (R241, R243). -/
def State.reset : State := State.launch Config.ref

end Sys2Proof.Machine
end

