-- ==== Sys2Proof/Machine/Memory.lean ====
section
/-!
DEFINITION. The register space as a list of words in one canonical form: addresses strictly rising, each a multiple
of 4 below 2^32 (10_state.md R37, 20_memory.md R50 to R52). Equal contents are equal lists.
-/

namespace Sys2Proof.Machine

/-- The word listed at an address, if any. -/
def Memory.lookup : Memory → Nat → Option Word
  | [], _ => none
  | (b, w) :: rest, a => if a = b then some w else if a < b then none else Memory.lookup rest a

/-- Store a word at an address, keeping the order. -/
def Memory.store : Memory → Nat → Word → Memory
  | [], a, v => [(a, v)]
  | (b, w) :: rest, a, v =>
    if a = b then (a, v) :: rest
    else if a < b then (a, v) :: (b, w) :: rest
    else (b, w) :: Memory.store rest a v

/-- Addresses rise strictly and all lie above `lo`, where one is given. -/
def Memory.risingFrom : Option Nat → Memory → Bool
  | _, [] => true
  | lo, (a, _) :: rest =>
    (match lo with | none => true | some l => decide (l < a)) && Memory.risingFrom (some a) rest

/-- The canonical form: strictly rising addresses, each that of a register word. -/
def Memory.wf (m : Memory) : Bool :=
  Memory.risingFrom none m && m.all (fun c => decide (c.1 % 4 = 0) && decide (c.1 < 2 ^ 32))

/-- What an address that is not listed holds: the free launch word of that address (10_state.md R38, R243,
notes/assumptions/4.md). -/
def unlistedWord (a : Nat) : Word := Config.launchWord a

/-- The word the register space stores at a register address. -/
def State.word (s : State) (addr : Word) : Word := (s.mem.lookup addr.toNat).getD (unlistedWord addr.toNat)

/-- The state with one stored word replaced. -/
def State.setWord (s : State) (addr v : Word) : State := { s with mem := s.mem.store addr.toNat v }

end Sys2Proof.Machine
end

