-- ==== Sys2Proof/Machine/Flags.lean ====
section
/-!
DEFINITION. The flags of this hardware, all of them bits of the register space (10_state.md R26, R39 to R45): masks of
named bits, the register classes of 20_memory.md R58 as what a read and a write of a register do, the bypass and lock
bits, and the observation function of 42_settle_and_lifecycle.md R185.
-/

namespace Sys2Proof.Machine

/-- The word with only bit `b` set (00_scope.md R11). -/
def bitMask (b : Nat) : Word := 1#32 <<< b

/-- The or of the masks of several bits. -/
def bitsMask (bs : List Nat) : Word := bs.foldr (fun b m => bitMask b ||| m) 0#32

/-- The bits of a field (10_state.md R31). -/
def fieldMask (f : Field) : Word := BitVec.ofNat 32 (2 ^ f.width - 1) <<< f.lsb

/-- The word with bit `b` made `v`. -/
def withBit (w : Word) (b : Nat) (v : Bool) : Word :=
  if v then w ||| bitMask b else w &&& ~~~(bitMask b)

/-- `ALLOWED_MASK`: the six latches and no other bit (00_scope.md R9, 41_pll_monitor.md R146). -/
def allowedMask (c : Config) : Word := bitsMask (c.achBit.toList ++ c.lostBit.toList)

/-- The three lock bits (10_state.md R41). -/
def lockMask (c : Config) : Word := bitsMask c.lockedBit.toList

/-- Latches and lock bits together: what a read of the status register shows (20_memory.md R58 (b)). -/
def statusMask (c : Config) : Word := allowedMask c ||| lockMask c

/-- `addr` is one of the registers with status bits: not of the plain class (20_memory.md R58). -/
def isStatusReg (c : Config) (addr : Word) : Bool :=
  addr == c.statusAddr || addr == c.statclrAddr || addr == c.statAddr

/-- The status bits that the register at `addr` holds or stands for. -/
def statusBitsAt (c : Config) (addr : Word) : Word :=
  (if addr = c.statusAddr ∨ addr = c.statclrAddr then statusMask c else 0#32) |||
    (if addr = c.statAddr then bitMask c.busyBit else 0#32)

/-- The bits of a node's plain fields that lie in the register at `addr` (20_memory.md R58 (a)). -/
def nodePlainMask (addr : Word) : Node → Word
  | .osc _ => 0#32
  | .pll _ mux _ numer denom =>
    (if mux.addr = addr then fieldMask mux else 0#32) |||
      ((if numer.addr = addr then fieldMask numer else 0#32) |||
        (if denom.addr = addr then fieldMask denom else 0#32))
  | .derived mux _ div gate =>
    (if mux.addr = addr then fieldMask mux else 0#32) |||
      ((if div.addr = addr then fieldMask div else 0#32) |||
        (match gate with
          | none => 0#32
          | some g => if g.addr = addr then bitMask g.bit else 0#32))

/-- The named plain bits of the register at `addr`: ratio, multiplexer and gate fields, the safe-mode bit, the
bypass-select bits (20_memory.md R58 (a)). -/
def plainMask (c : Config) (addr : Word) : Word :=
  c.topo.foldr (fun node m => nodePlainMask addr node ||| m)
    ((if addr = c.ctrlAddr then bitMask c.safemodeBit else 0#32) |||
      (if addr = c.bypassAddr then bitsMask c.bypassBit.toList else 0#32))

/-- The bits of a register with status bits that a write stores: its named plain bits that are no status bits. No
platform should have any (70_reset_and_hazards.md R258), and REF has none; the other bits of such a register are left
as they are (R58 (b), (c); notes/assumptions/9.md). -/
def storeMask (c : Config) (addr : Word) : Word := plainMask c addr &&& ~~~(statusBitsAt c addr)

/-- What a read of the register at `addr` returns, without side effect (20_memory.md R53, R58): the word it stores,
where the latches and lock bits of `ADDR_STATCLR` are those of `ADDR_STATUS`. -/
def State.readReg (s : State) (addr : Word) : Word :=
  if addr = s.cfg.statclrAddr ∧ addr ≠ s.cfg.statusAddr then
    (s.word addr &&& ~~~(statusMask s.cfg)) ||| (s.word s.cfg.statusAddr &&& statusMask s.cfg)
  else s.word addr

/-- What a write of `v` stores in the register at `addr` itself: the whole word in a plain register (R58 (a)), only
the named plain bits in a register with status bits. -/
def State.storeReg (s : State) (addr v : Word) : State :=
  if isStatusReg s.cfg addr then
    s.setWord addr ((s.word addr &&& ~~~(storeMask s.cfg addr)) ||| (v &&& storeMask s.cfg addr))
  else s.setWord addr v

/-- Clear the latches whose position has 1 in `v`: `L' = L & ~v` at the positions of `ALLOWED_MASK`
(20_memory.md R58 (b), 41_pll_monitor.md R145). -/
def State.clearLatches (s : State) (v : Word) : State :=
  s.setWord s.cfg.statusAddr (s.word s.cfg.statusAddr &&& ~~~(v &&& allowedMask s.cfg))

/-- The effect of a write of `v` to the register at `addr`, by the register's class (20_memory.md R54, R58). It counts
as a change after which the busy bit may rise (42_settle_and_lifecycle.md R184). -/
def State.writeReg (s : State) (addr v : Word) : State :=
  let t := s.storeReg addr v
  let u := if addr = s.cfg.statclrAddr then t.clearLatches v else t
  { u with disturbed := true }

/-- The safe-mode bit (10_state.md R39). -/
def State.safeMode (s : State) : Bool := (s.readReg s.cfg.ctrlAddr).getLsbD s.cfg.safemodeBit

/-- The bypass-select bit of PLL `p` (10_state.md R40). -/
def State.bypassSelect (s : State) (p : PllId) : Bool :=
  (s.readReg s.cfg.bypassAddr).getLsbD (s.cfg.bypassBit.get p)

/-- `byp(p)`: safe mode or the individual bit (42_settle_and_lifecycle.md R185, 41_pll_monitor.md R143). -/
def State.byp (s : State) (p : PllId) : Bool := s.safeMode || s.bypassSelect p

/-- `lck(p)`: the lock bit (42_settle_and_lifecycle.md R185, 10_state.md R41). -/
def State.lck (s : State) (p : PllId) : Bool := (s.readReg s.cfg.statusAddr).getLsbD (s.cfg.lockedBit.get p)

/-- The busy bit (10_state.md R43). -/
def State.busy (s : State) : Bool := (s.readReg s.cfg.statAddr).getLsbD s.cfg.busyBit

/-- What the host can tell of a PLL's lifecycle (42_settle_and_lifecycle.md R185). -/
inductive Observed where
  | bypassed
  | locked
  | locking
deriving DecidableEq, Repr

/-- The classification of R185 and its priority. -/
def classify (byp lck : Bool) : Observed :=
  if byp then .bypassed else if lck then .locked else .locking

/-- `obs(p)` (R185). -/
def State.obs (s : State) (p : PllId) : Observed := classify (s.byp p) (s.lck p)

end Sys2Proof.Machine
end

