-- ==== Sys2Proof/Machine/Operands.lean ====
section
/-!
DEFINITION. Operands: the three identifier spaces of 30_encoding.md R87, the STAT_CLEAR mask, the capability check of
41_pll_monitor.md R150, and the fields extracted from register words (10_state.md R31, R33; 30_encoding.md R90).
-/

namespace Sys2Proof.Machine

/-- A node id is valid below `N_NODES` (R87). -/
def nodeId? (c : Config) (a : Word) : Option Nat := if a.toNat < c.nNodes then some a.toNat else none

/-- A PLL index is valid below 3 (R87). -/
def pllIndex? (a : Word) : Option PllId :=
  match a.toNat with
  | 0 => some .primary
  | 1 => some .peripheral
  | 2 => some .memory
  | _ => none

/-- The operand that names PLL `p` (R87). -/
def pllOperand : PllId → Word
  | .primary => 0#32
  | .peripheral => 1#32
  | .memory => 2#32

/-- An oscillator index is valid below `N_OSC` (R87). -/
def oscIndex? (c : Config) (a : Word) : Option Nat := if a.toNat < c.nOsc then some a.toNat else none

/-- A STAT_CLEAR mask is valid when it has no bit outside `ALLOWED_MASK` (41_pll_monitor.md R144). -/
def maskAllowed (c : Config) (a : Word) : Bool := (a &&& ~~~(allowedMask c)) == 0#32

/-- The gate of a node, if it has one (41_pll_monitor.md R150): only a derived node can (10_state.md R32). -/
def gateOf (c : Config) (n : Nat) : Option Gate :=
  match c.topo[n]? with
  | some (.derived _ _ _ gate) => gate
  | _ => none

/-- What the checks shared by the three gate operations find, before any register access (R150). -/
def gateOperand (c : Config) (a : Word) : Except Failure Gate :=
  match nodeId? c a with
  | none => .error .badArgument
  | some n =>
    match gateOf c n with
    | none => .error .unsupportedCapability
    | some g => .ok g

/-- `extract(w, f)` (10_state.md R31). -/
def extract (w : Word) (f : Field) : Word := (w >>> f.lsb) &&& BitVec.ofNat 32 (2 ^ f.width - 1)

/-- The node a menu gives for a multiplexer value, or unknown (10_state.md R33); of two entries for one value the first
counts (notes/assumptions/14.md). -/
def menuLookup : Menu → Nat → Option Nat
  | [], _ => none
  | (k, n) :: rest, v => if v = k then some n else menuLookup rest v

/-- `zext_64(x) + 1`: the effective multiplier or divisor of a raw field (30_encoding.md R90). -/
def plusOne (x : Word) : Wide := x.setWidth 64 + 1#64

/-- The numerator and denominator fields of PLL `p` (10_state.md R44). -/
def ratioFields (c : Config) (p : PllId) : Option (Field × Field) :=
  match c.topo[c.pllNode.get p]? with
  | some (.pll _ _ _ numer denom) => some (numer, denom)
  | _ => none

/-- The operand checks of an operation that are made on the command word alone (60_exceptions.md R202 (a) to (d), (f),
R204): the failure they report, if any. -/
def commandFailure (c : Config) : Instr → Option Failure
  | .resolve a => match nodeId? c a with | none => some .badArgument | some _ => none
  | .oscSet a _ => match oscIndex? c a with | none => some .badArgument | some _ => none
  | .pllLocked a => match pllIndex? a with | none => some .badArgument | some _ => none
  | .pllBypassed a => match pllIndex? a with | none => some .badArgument | some _ => none
  | .statClear a => if maskAllowed c a then none else some .badArgument
  | .clkEnable a => match gateOperand c a with | .error k => some k | .ok _ => none
  | .clkDisable a => match gateOperand c a with | .error k => some k | .ok _ => none
  | .clkEnabled a => match gateOperand c a with | .error k => some k | .ok _ => none
  | .settleWait => none
  | .reserved0 => some .badArgument
  | .reservedA => some .badArgument
  | .reservedB => some .badArgument
  | .reservedC => some .badArgument
  | .reservedD => some .badArgument
  | .reservedE => some .badArgument
  | .reservedF => some .badArgument

end Sys2Proof.Machine
end

