-- ==== Sys2Proof/Machine/Lifecycle.lean ====
section
/-!
DEFINITION. The other two agents: the clock hardware's moves and the host's direct register accesses, with what they do
to the PLL lifecycle (42_settle_and_lifecycle.md R175 to R187). The block's operations never change it (R176).
-/

namespace Sys2Proof.Machine

/-- The state with `life[p]` replaced. -/
def State.setLife (s : State) (p : PllId) (l : Life) : State := { s with life := s.life.set p l }

/-- The state with one bit of the status register replaced, by the clock hardware. -/
def State.setStatusBit (s : State) (b : Nat) (v : Bool) : State :=
  s.setWord s.cfg.statusAddr (withBit (s.word s.cfg.statusAddr) b v)

/-- The state with the busy bit replaced, by the clock hardware (10_state.md R43). -/
def State.setBusy (s : State) (v : Bool) : State :=
  s.setWord s.cfg.statAddr (withBit (s.word s.cfg.statAddr) s.cfg.busyBit v)

/-- One move of the clock hardware; a move its rule does not allow now leaves everything as it is. -/
def State.hwMove (s : State) : HwMove → State
  | .lockAcquired p =>
    if s.life.get p = .locking then
      ((s.setLife p .locked).setStatusBit (s.cfg.achBit.get p) true).setStatusBit (s.cfg.lockedBit.get p) true
    else s
  | .lockLost p =>
    if s.life.get p = .locked then
      ((s.setLife p .locking).setStatusBit (s.cfg.lostBit.get p) true).setStatusBit (s.cfg.lockedBit.get p) false
    else s
  | .lockBitWanders p b =>
    if s.life.get p = .bypassed ∨ s.life.get p = .reconfiguring then
      s.setStatusBit (s.cfg.lockedBit.get p) b
    else s
  | .busyRises => if s.disturbed then s.setBusy true else s
  | .busyFalls => { s.setBusy false with disturbed := false }
  | .drive addr w => if addr.toNat % 4 = 0 then s.setWord addr w else s

/-- Several moves of the clock hardware, in order. -/
def State.hwMoves (s : State) (ms : List HwMove) : State := ms.foldl State.hwMove s

/-- The raw numerator and denominator of PLL `p` as the register space holds them now (10_state.md R44). -/
def State.ratio (s : State) (p : PllId) : Option (Word × Word) :=
  match ratioFields s.cfg p with
  | none => none
  | some (numer, denom) =>
    some (extract (s.readReg numer.addr) numer, extract (s.readReg denom.addr) denom)

/-- From `s` to `t` a host write made the safe-mode bit or `BIT_BYP[p]` 1 (R182). The model's choice: to make a bit 1 is
to take it from 0 to 1. A write that stores 1 again in a bit that is 1 already (to set another PLL's bit, or to retry the
first step of 70_reset_and_hazards.md R252) asserts nothing, and a RECONFIGURING PLL stays RECONFIGURING (DESIGN CHOICE,
notes/assumptions/16.md). -/
def bypassAsserted (s t : State) (p : PllId) : Bool :=
  (!s.safeMode && t.safeMode) || (!s.bypassSelect p && t.bypassSelect p)

/-- From `s` to `t` a host write lifted the bypass of PLL `p` (R178, R179). -/
def bypassLifted (s t : State) (p : PllId) : Bool := s.byp p && !t.byp p

/-- The effect of a ratio change on a lifecycle state: RECONFIGURING from BYPASSED or RECONFIGURING (R177), no meaning
from LOCKING or LOCKED (R183). A write is a ratio change when a field's value changes (notes/assumptions/12.md). -/
def lifeAfterRatio (l : Life) (changed : Bool) : Option Life :=
  if changed then
    match l with
    | .bypassed => some .reconfiguring
    | .reconfiguring => some .reconfiguring
    | .locking => none
    | .locked => none
  else some l

/-- What a host write that took the register space from that of `before` to that of `after` does to `life[p]` and to
the lock bit of PLL `p` (R177 to R183, R187), in a state `s`: a ratio change first, then bypass asserted (the lock bit
becomes free, R182) or lifted (the lock bit is 0, as R185 requires of LOCKING; notes/assumptions/8.md). -/
def State.hostMovesPll (s before after : State) (p : PllId) : Host.Outcome State Fault Refusal :=
  match lifeAfterRatio (s.life.get p) (decide (before.ratio p ≠ after.ratio p)) with
  | none => .refused (.illegalRatioWrite p)
  | some l =>
    if bypassAsserted before after p then
      .next { (s.setLife p .bypassed).setStatusBit (s.cfg.lockedBit.get p) (Config.freeBit s.draws) with
        draws := s.draws + 1 }
    else if bypassLifted before after p then
      .next ((s.setLife p .locking).setStatusBit (s.cfg.lockedBit.get p) false)
    else .next (s.setLife p l)

/-- Go on with a next state. -/
def andNext (o : Host.Outcome State Fault Refusal) (k : State → Host.Outcome State Fault Refusal) :
    Host.Outcome State Fault Refusal :=
  match o with
  | .next s => k s
  | .fault f => .fault f
  | .refused r => .refused r

/-- The host writes `v` to the register at `addr` between operations (20_memory.md R58, R61 (c);
42_settle_and_lifecycle.md R177 to R183; notes/assumptions/13.md). -/
def State.hostWrite (s : State) (addr v : Word) : Host.Outcome State Fault Refusal :=
  if addr.toNat % 4 = 0 then
    let t := s.writeReg addr v
    andNext (t.hostMovesPll s t .primary) fun t1 =>
      andNext (t1.hostMovesPll s t .peripheral) fun t2 => t2.hostMovesPll s t .memory
  else .refused .misalignedHostAccess

/-- The host reads the register at `addr` between operations: no side effect (20_memory.md R58;
notes/assumptions/13.md). -/
def State.hostRead (s : State) (addr : Word) : Host.Outcome State Fault Refusal :=
  if addr.toNat % 4 = 0 then .next { s with hostWord := some (s.readReg addr) }
  else .refused .misalignedHostAccess

end Sys2Proof.Machine
end

