-- ==== Sys2Proof/Machine/Ops.lean ====
section
/-!
DEFINITION. The operations every meaning is written over: the four access primitives (20_memory.md R53 to R56) as
transfers that the clock hardware and reset may come before, and the ways an operation ends: a response, a failure
(60_exceptions.md R209, the block's one exception entry), or a reset (70_reset_and_hazards.md R242).
-/

namespace Sys2Proof.Machine

/-- Where part of an operation has got to. -/
inductive Res (α : Type) where
  /-- It goes on from `s`, with `a`. -/
  | ok (a : α) (s : State)
  /-- `raise k`: the operation ends at once with that failure (00_scope.md R12). -/
  | failed (k : Failure) (s : State)
  /-- Reset came; the operation ends without a response (70_reset_and_hazards.md R242). -/
  | resetHit (s : State)

/-- Do `r`, then `k`; a failure or a reset in `r` is the end of both (60_exceptions.md R212). -/
def Res.andThen {α β : Type} (r : Res α) (k : α → State → Res β) : Res β :=
  match r with
  | .ok a s => k a s
  | .failed f s => .failed f s
  | .resetHit s => .resetHit s

/-- The clock hardware makes the moves it is scheduled to make before the coming transfer (20_memory.md R61 (d)). -/
def State.pollHw (s : State) : State :=
  match s.hw with
  | [] => s
  | ms :: rest => { s with hw := rest }.hwMoves ms

/-- The point before a transfer: reset comes here or it does not (R242, U13; notes/assumptions/11.md), and the clock hardware may move. -/
def State.transferPoint (s : State) : Res Unit :=
  match s.resetIn with
  | none => .ok () s.pollHw
  | some 0 => .resetHit s
  | some (k + 1) => .ok () { s with resetIn := some k }.pollHw

/-- Record an event (20_memory.md R66). -/
def State.record (s : State) (e : Event) : State := { s with events := s.events ++ [e] }

/-- `read32(addr)` (20_memory.md R53). -/
def read32 (addr : Word) (s : State) : Res Word :=
  s.transferPoint.andThen fun _ s => .ok (s.readReg addr) (s.record (.rd addr (s.readReg addr)))

/-- `write32(addr, v)` (20_memory.md R54). -/
def write32 (addr v : Word) (s : State) : Res Unit :=
  s.transferPoint.andThen fun _ s => .ok () ((s.writeReg addr v).record (.wr addr v))

/-- `set_bits32(addr, m)`: a read, then a write of the word read with the bits of `m` set (20_memory.md R55). -/
def setBits32 (addr m : Word) (s : State) : Res Unit :=
  (read32 addr s).andThen fun w s => write32 addr (w ||| m) { s with rmw := w }

/-- `clear_bits32(addr, m)`: a read, then a write of the word read with the bits of `m` cleared (20_memory.md R56). -/
def clearBits32 (addr m : Word) (s : State) : Res Unit :=
  (read32 addr s).andThen fun w s => write32 addr (w &&& ~~~m) { s with rmw := w }

/-- Read a register and extract a field of it (20_memory.md R68). -/
def readField (f : Field) (s : State) : Res Word :=
  (read32 f.addr s).andThen fun w s => .ok (extract w f) s

/-- The status code of a failure (60_exceptions.md R201). -/
def Failure.code : Failure → BitVec 3
  | .badArgument => 1#3
  | .arithmeticOverflow => 2#3
  | .unsupportedCapability => 3#3
  | .timeout => 4#3

/-- The status code of success (60_exceptions.md R201). -/
def okCode : BitVec 3 := 0#3

/-- `rw[34:32]` = status, `rw[31:0]` = value (30_encoding.md R82). -/
def packResponse (status : BitVec 3) (value : Word) : ResponseWord := status ++ value

/-- End the operation: write `status` and `value`, move RUN to IDLE, present the response (10_state.md R25). -/
def State.respond (s : State) (status : BitVec 3) (value : Word) : State :=
  { s with status := status, value := value, phase := .idle, resp := some (packResponse status value) }

/-- `return OK(v)` (00_scope.md R12). -/
def State.succeed (s : State) (v : Word) : State := s.respond okCode v

/-- Entry of a failure (60_exceptions.md R209), the block's one exception: `status` takes the kind's code and `value` an
unspecified word, drawn afresh (U1); no handler, no vector, nothing saved; the block is IDLE and accepts the next
command, with no operation of return (R211). -/
def State.raiseFailure (s : State) (k : Failure) : State :=
  { s.respond k.code (Config.freeWord s.draws) with draws := s.draws + 1 }

/-- The block's reset (70_reset_and_hazards.md R240 to R243): its registers as at launch, the register space, the
lifecycle and the events already issued untouched, no response (notes/assumptions/5.md, 11.md). -/
def State.blockReset (s : State) : State :=
  { State.launch s.cfg with
    mem := s.mem, life := s.life, disturbed := s.disturbed, events := s.events, inputs := s.inputs, hw := s.hw,
    hostWord := s.hostWord, draws := s.draws }

/-- The state an operation ends in, by its result, unless reset comes before its response (R242). -/
def Res.conclude (r : Res Word) : State :=
  match r with
  | .ok v s => match s.resetIn with | none => s.succeed v | some _ => s.blockReset
  | .failed k s => match s.resetIn with | none => s.raiseFailure k | some _ => s.blockReset
  | .resetHit s => s.blockReset

/-- End an operation. Every operation that ends at all ends in a next state: "No error is fatal to the subsystem
itself" (60_exceptions.md R200). -/
def finish (r : Res Word) : Host.Outcome State Fault Refusal := .next r.conclude

/-- Accept a command word: IDLE to RUN, the three request registers latched (10_state.md R25, 30_encoding.md R80,
R81); the record of events starts anew, and no response is presented until the operation ends
(notes/assumptions/6.md). -/
def State.accept (s : State) (cw : CommandWord) (resetAfter : Option Nat) : State :=
  { s with
    phase := .run, opR := opField cw, aR := aField cw, bR := bField cw, events := [], resp := none,
    resetIn := resetAfter }

/-- The operation that the latched request registers select (10_state.md R21, 30_encoding.md R86). -/
def State.latched (s : State) : Instr := decodeFields s.opR s.aR s.bR

/-- The text of a response (30_encoding.md R93). -/
def responseText (status : BitVec 3) (value : Word) : String :=
  if status = okCode then "-> OK(" ++ toString value.toNat ++ ")"
  else if status = Failure.code .badArgument then "-> BAD_ARGUMENT"
  else if status = Failure.code .arithmeticOverflow then "-> ARITHMETIC_OVERFLOW"
  else if status = Failure.code .unsupportedCapability then "-> UNSUPPORTED_CAPABILITY"
  else if status = Failure.code .timeout then "-> TIMEOUT"
  else "-> (never produced)"

end Sys2Proof.Machine
end

