-- ==== Sys2Proof/Machine/Monitor.lean ====
section
/-!
DEFINITION. The PLL state monitor's six operations (41_pll_monitor.md).
-/

namespace Sys2Proof.Machine

/-- PLL_LOCKED (R141): one read of `ADDR_STATUS`, one bit tested. -/
def execPllLocked (a : Word) (s : State) : Host.Outcome State Fault Refusal :=
  finish
    (match pllIndex? a with
    | none => .failed .badArgument s
    | some p =>
      (read32 s.cfg.statusAddr s).andThen fun w s => .ok (boolWord (w.getLsbD (s.cfg.lockedBit.get p))) s)

/-- PLL_BYPASSED (R142): both registers are read, `ADDR_CTRL` first, with no short-circuit. -/
def execPllBypassed (a : Word) (s : State) : Host.Outcome State Fault Refusal :=
  finish
    (match pllIndex? a with
    | none => .failed .badArgument s
    | some p =>
      (read32 s.cfg.ctrlAddr s).andThen fun c s =>
        (read32 s.cfg.bypassAddr s).andThen fun y s =>
          .ok (boolWord (c.getLsbD s.cfg.safemodeBit || y.getLsbD (s.cfg.bypassBit.get p))) s)

/-- STAT_CLEAR (R144): one write of the mask, or nothing at all. -/
def execStatClear (a : Word) (s : State) : Host.Outcome State Fault Refusal :=
  finish
    (if maskAllowed s.cfg a then (write32 s.cfg.statclrAddr a s).andThen fun _ s => .ok 0#32 s
    else .failed .badArgument s)

/-- CLK_ENABLE (R147, R150). -/
def execClkEnable (a : Word) (s : State) : Host.Outcome State Fault Refusal :=
  finish
    (match gateOperand s.cfg a with
    | .error k => .failed k s
    | .ok g => (setBits32 g.addr (bitMask g.bit) s).andThen fun _ s => .ok 0#32 s)

/-- CLK_DISABLE (R148, R150). -/
def execClkDisable (a : Word) (s : State) : Host.Outcome State Fault Refusal :=
  finish
    (match gateOperand s.cfg a with
    | .error k => .failed k s
    | .ok g => (clearBits32 g.addr (bitMask g.bit) s).andThen fun _ s => .ok 0#32 s)

/-- CLK_ENABLED (R149, R150). -/
def execClkEnabled (a : Word) (s : State) : Host.Outcome State Fault Refusal :=
  finish
    (match gateOperand s.cfg a with
    | .error k => .failed k s
    | .ok g => (read32 g.addr s).andThen fun w s => .ok (boolWord (w.getLsbD g.bit)) s)

end Sys2Proof.Machine
end

