-- ==== Sys2Proof/Machine/Reserved.lean ====
section
/-!
DEFINITION. The seven reserved opcodes (30_encoding.md R88): BAD_ARGUMENT, no register access, no state change but the
response.
-/

namespace Sys2Proof.Machine

/-- What a reserved opcode does (R88). -/
def reservedOpcode (s : State) : Host.Outcome State Fault Refusal := finish (.failed .badArgument s)

/-- Opcode 0x0, so that an all-zero command word is an error (R88). -/
def execReserved0 (s : State) : Host.Outcome State Fault Refusal := reservedOpcode s

/-- Opcode 0xA (R88). -/
def execReservedA (s : State) : Host.Outcome State Fault Refusal := reservedOpcode s

/-- Opcode 0xB (R88). -/
def execReservedB (s : State) : Host.Outcome State Fault Refusal := reservedOpcode s

/-- Opcode 0xC (R88). -/
def execReservedC (s : State) : Host.Outcome State Fault Refusal := reservedOpcode s

/-- Opcode 0xD (R88). -/
def execReservedD (s : State) : Host.Outcome State Fault Refusal := reservedOpcode s

/-- Opcode 0xE (R88). -/
def execReservedE (s : State) : Host.Outcome State Fault Refusal := reservedOpcode s

/-- Opcode 0xF (R88). -/
def execReservedF (s : State) : Host.Outcome State Fault Refusal := reservedOpcode s

end Sys2Proof.Machine
end

