-- ==== Sys2Proof/Machine/Resolver.lean ====
section
/-!
DEFINITION. RESOLVE and OSC_SET (40_resolver.md).
-/

namespace Sys2Proof.Machine

/-- `stk[sp] <- n` (R111). -/
def State.visit (s : State) (n : Nat) : State := { s with stk := s.stk.set s.sp n }

/-- `sp <- sp + 1`, before the recursive call (R111). -/
def State.descend (s : State) : State := { s with sp := s.sp + 1 }

/-- `sp <- sp − 1`, after it (R111). -/
def State.ascend (s : State) : State := { s with sp := s.sp - 1 }

/-- `acc <- v` (R111). -/
def State.setAcc (s : State) (v : Wide) : State := { s with acc := v }

/-- The largest frequency, 2^32 − 1, in the accumulator's width (R116). -/
def maxFrequency : Wide := 0xFFFFFFFF#64

/-- A PLL stage (R114, R116, R117): multiply first, then divide, then the check on the 64-bit quotient, then narrow. -/
def pllStage (fp rawN rawD : Word) (s : State) : Res Word :=
  let product := fp.setWidth 64 * plusOne rawN
  let quotient := product / plusOne rawD
  let s := s.setAcc quotient
  if maxFrequency < quotient then .failed .arithmeticOverflow s else .ok (quotient.setWidth 32) s

/-- A derived-clock stage (R115): the quotient never exceeds `fp`. -/
def derivedStage (fp rawR : Word) (s : State) : Res Word :=
  let quotient := fp.setWidth 64 / plusOne rawR
  .ok (quotient.setWidth 32) (s.setAcc quotient)

/-- The multiplexer step (R113, R120): read the field live, and find the parent or fail. -/
def selectParent (mux : Field) (menu : Menu) (s : State) : Res Nat :=
  (readField mux s).andThen fun v s =>
    match menuLookup menu v.toNat with
    | none => .failed .badArgument s
    | some m => .ok m s

/-- Where a walk has got to: to a result, or nowhere. -/
inductive Walk where
  /-- The walk came to a frequency, a failure or a reset. -/
  | done (r : Res Word)
  /-- The walk has nowhere to go (93_implementation_defined.md U7). -/
  | stuck (f : Fault)

/-- Do `r`, then the walk `k`. -/
def Res.thenWalk {α : Type} (r : Res α) (k : α → State → Walk) : Walk :=
  match r with
  | .ok a s => k a s
  | .failed f s => .done (.failed f s)
  | .resetHit s => .done (.resetHit s)

/-- Do the walk `w`, then the stage `k` with its frequency; a failure below is not caught (60_exceptions.md R212). -/
def Walk.thenStage (w : Walk) (k : Word → State → Res Word) : Walk :=
  match w with
  | .done r => .done (r.andThen k)
  | .stuck f => .stuck f

/-- `resolve(n)` of R111, on a fuel that a walk of a well-formed topology never uses up (R122); out of fuel the walk is
stuck, never a frequency (U7). -/
def resolveNode : Nat → Nat → State → Walk
  | 0, _, _ => .stuck .walkTooDeep
  | fuel + 1, n, s0 =>
    let s := s0.visit n
    match s.cfg.topo[n]? with
    | none => .stuck .noSuchNode
    | some (.osc i) =>
      match s.osc[i]? with
      | none => .stuck .noSuchOscillator
      | some o => .done (.ok o.freq s)
    | some (.pll _ mux menu numer denom) =>
      (selectParent mux menu s).thenWalk fun m s =>
        (resolveNode fuel m s.descend).thenStage fun fp s =>
          (readField numer s.ascend).andThen fun rawN s =>
            (readField denom s).andThen fun rawD s => pllStage fp rawN rawD s
    | some (.derived mux menu div _) =>
      (selectParent mux menu s).thenWalk fun m s =>
        (resolveNode fuel m s.descend).thenStage fun fp s =>
          (readField div s.ascend).andThen fun rawR s => derivedStage fp rawR s

/-- End a walk: in its result, or stuck. -/
def Walk.outcome (w : Walk) : Host.Outcome State Fault Refusal :=
  match w with
  | .done r => finish r
  | .stuck f => .fault f

/-- RESOLVE (R111). -/
def execResolve (a : Word) (s : State) : Host.Outcome State Fault Refusal :=
  match nodeId? s.cfg a with
  | none => finish (.failed .badArgument s)
  | some n => (resolveNode (s.cfg.maxDepth + 1) n { s with sp := 0 }).outcome

/-- `OSC[i].freq <- f` (R125); the other members of the record and the other records stay. -/
def State.setOscFreq (s : State) (i : Nat) (f : Word) : State :=
  { s with osc := s.osc.modify i (fun o => { o with freq := f }) }

/-- OSC_SET (R125). -/
def execOscSet (a b : Word) (s : State) : Host.Outcome State Fault Refusal :=
  finish
    (match oscIndex? s.cfg a with
    | none => .failed .badArgument s
    | some i => .ok 0#32 (s.setOscFreq i b))

end Sys2Proof.Machine
end

