-- ==== Sys2Proof/Machine/Settle.lean ====
section
/-!
DEFINITION. SETTLE_WAIT (42_settle_and_lifecycle.md R170 to R174).
-/

namespace Sys2Proof.Machine

/-- `iter <- iter + 1` (R171). -/
def State.countRead (s : State) : State := { s with iter := s.iter + 1#32 }

/-- The poll loop with `left` reads still permitted (R171, R172): `left` is `SETTLE_BOUND − iter`. -/
def settleLoop : Nat → State → Res Word
  | 0, s => .failed .timeout s
  | left + 1, s =>
    (read32 s.cfg.statAddr s).andThen fun w s =>
      if w.getLsbD s.cfg.busyBit then settleLoop left s.countRead else .ok 0#32 s.countRead

/-- SETTLE_WAIT (R171). -/
def execSettleWait (s : State) : Host.Outcome State Fault Refusal :=
  finish (settleLoop s.cfg.settleBound { s with iter := 0#32 })

end Sys2Proof.Machine
end

