-- ==== Sys2Proof/Machine/Dispatch.lean ====
section
/-! DEFINITION. Which meaning each operation has (30_encoding.md R85, R88). -/

namespace Sys2Proof.Machine

def exec (i : Instr) (s : State) : Host.Outcome State Fault Refusal :=
  match i with
  | .resolve a => Sys2Proof.Machine.execResolve a s
  | .oscSet a b => Sys2Proof.Machine.execOscSet a b s
  | .pllLocked a => Sys2Proof.Machine.execPllLocked a s
  | .pllBypassed a => Sys2Proof.Machine.execPllBypassed a s
  | .statClear a => Sys2Proof.Machine.execStatClear a s
  | .clkEnable a => Sys2Proof.Machine.execClkEnable a s
  | .clkDisable a => Sys2Proof.Machine.execClkDisable a s
  | .clkEnabled a => Sys2Proof.Machine.execClkEnabled a s
  | .settleWait => Sys2Proof.Machine.execSettleWait s
  | .reserved0 => Sys2Proof.Machine.execReserved0 s
  | .reservedA => Sys2Proof.Machine.execReservedA s
  | .reservedB => Sys2Proof.Machine.execReservedB s
  | .reservedC => Sys2Proof.Machine.execReservedC s
  | .reservedD => Sys2Proof.Machine.execReservedD s
  | .reservedE => Sys2Proof.Machine.execReservedE s
  | .reservedF => Sys2Proof.Machine.execReservedF s

end Sys2Proof.Machine
end

