-- ==== Sys2Proof/WellFormed.lean ====
section
/-!
DEFINITION. When a configuration is well-formed: the conditions of 00_scope.md R9 and the clauses (a) to (h) of
10_state.md R34, one check each. A model refuses a configuration that fails any of them (R34, U7,
60_exceptions.md R219 (a)).
Command words need no check of this kind: every 68-bit word is an operation or a reserved opcode
(30_encoding.md R86) and a bad operand is a run-time failure, not an encoding error (R91).
-/

namespace Sys2Proof

/-- The menu of a node; a root has none (10_state.md R30, R33). -/
def Node.menu : Node → Menu
  | .osc _ => []
  | .pll _ _ menu _ _ => menu
  | .derived _ menu _ _ => menu

/-- The nodes a node's multiplexer can select: the edges of the graph of R34 (b). -/
def Config.parents (c : Config) (n : Nat) : List Nat :=
  match c.topo[n]? with
  | none => []
  | some node => node.menu.map Prod.snd

/-- Every path of the graph that starts at `n` has at most `k` edges. -/
def Config.pathsWithin (c : Config) : Nat → Nat → Bool
  | 0, n => (c.parents n).isEmpty
  | k + 1, n => (c.parents n).all (fun m => Config.pathsWithin c k m)

/-- Register addresses are multiples of 4 (20_memory.md R51). -/
def aligned (a : Word) : Bool := a.toNat % 4 == 0

/-- A field descriptor obeys 10_state.md R31. -/
def Field.wf (f : Field) : Bool := aligned f.addr && decide (1 ≤ f.width) && decide (f.lsb + f.width ≤ 32)

/-- A gate descriptor obeys 10_state.md R32. -/
def Gate.wf (g : Gate) : Bool := aligned g.addr && decide (g.bit ≤ 31)

/-- `N_NODES` ≥ 4 (00_scope.md R9). -/
def Config.enoughNodes (c : Config) : Bool := decide (4 ≤ c.nNodes)

/-- `N_OSC` ≥ 1 (00_scope.md R9). -/
def Config.enoughOscs (c : Config) : Bool := decide (1 ≤ c.nOsc)

/-- R34 (a): every node id in every menu is below `N_NODES`. -/
def Config.menusInRange (c : Config) : Bool :=
  c.topo.all (fun node => node.menu.all (fun e => decide (e.2 < c.nNodes)))

/-- R34 (b): no cycle. A path of an acyclic graph has fewer edges than the graph has nodes. -/
def Config.acyclic (c : Config) : Bool :=
  (List.range c.nNodes).all (fun n => c.pathsWithin c.nNodes n)

/-- Node `n` is an oscillator. -/
def Config.isOsc (c : Config) (n : Nat) : Bool :=
  match c.topo[n]? with
  | some (.osc _) => true
  | _ => false

/-- R34 (c): every menu entry of a PLL node is an oscillator node. -/
def Config.pllMenusAreOscs (c : Config) : Bool :=
  c.topo.all (fun node =>
    match node with
    | .pll _ _ menu _ _ => menu.all (fun e => c.isOsc e.2)
    | _ => true)

/-- R34 (d): every menu entry of a derived node is a PLL, derived or oscillator node, that is, a node. -/
def Config.derivedMenusAreNodes (c : Config) : Bool :=
  c.topo.all (fun node =>
    match node with
    | .derived _ menu _ _ => menu.all (fun e => (c.topo[e.2]?).isSome)
    | _ => true)

/-- The PLL indices the topology carries, in node order. -/
def Config.pllIndices (c : Config) : List PllId :=
  c.topo.filterMap (fun node =>
    match node with
    | .pll p _ _ _ _ => some p
    | _ => none)

/-- The node that `PLL_NODE[p]` names is the PLL node of index `p`. -/
def Config.pllNodeNames (c : Config) (p : PllId) : Bool :=
  match c.topo[c.pllNode.get p]? with
  | some (.pll q _ _ _ _) => decide (q = p)
  | _ => false

/-- R34 (e): exactly three nodes are PLLs, of indices 0, 1 and 2, and `PLL_NODE[p]` names the one of index `p`. -/
def Config.threePlls (c : Config) : Bool :=
  decide (c.pllIndices.length = 3) && PllId.all.all c.pllNodeNames

/-- The oscillator indices the topology carries, in node order. -/
def Config.oscIndices (c : Config) : List Nat :=
  c.topo.filterMap (fun node =>
    match node with
    | .osc i => some i
    | _ => none)

/-- R34 (f): the oscillator nodes carry each index from 0 to `N_OSC` − 1 exactly once. -/
def Config.oscsOnce (c : Config) : Bool :=
  c.oscIndices.all (fun i => decide (i < c.nOsc)) &&
    (List.range c.nOsc).all (fun i => decide (c.oscIndices.count i = 1))

/-- R34 (g): `MAX_DEPTH` is at least the length of the longest path. -/
def Config.deepEnough (c : Config) : Bool :=
  (List.range c.nNodes).all (fun n => c.pathsWithin c.maxDepth n)

/-- R34 (h): a node's descriptors obey R31 and R32, with a numerator of at most 12 bits and a denominator of at
most 6 (00_scope.md R8). -/
def Node.wf : Node → Bool
  | .osc _ => true
  | .pll _ mux _ numer denom =>
    mux.wf && numer.wf && denom.wf && decide (numer.width ≤ 12) && decide (denom.width ≤ 6)
  | .derived mux _ div gate =>
    mux.wf && div.wf && (match gate with | none => true | some g => g.wf)

/-- R34 (h) over the whole topology. -/
def Config.descriptorsWf (c : Config) : Bool := c.topo.all Node.wf

/-- The register addresses are multiples of 4 (00_scope.md R9). -/
def Config.regmapAligned (c : Config) : Bool :=
  [c.base, c.ctrlAddr, c.bypassAddr, c.statusAddr, c.statclrAddr, c.statAddr].all aligned

/-- The register addresses that 00_scope.md R9 lists below `CM_BASE` are `CM_BASE` plus an offset: a natural number, so
that none lies below `CM_BASE` (DEDUCED, notes/assumptions/1.md). -/
def Config.regmapAboveBase (c : Config) : Bool :=
  [c.ctrlAddr, c.bypassAddr, c.statusAddr, c.statclrAddr, c.statAddr].all (fun a => decide (c.base.toNat ≤ a.toNat))

/-- The bit positions are 0 to 31 (00_scope.md R9). -/
def Config.regmapBits (c : Config) : Bool :=
  (c.safemodeBit :: c.busyBit ::
      (c.bypassBit.toList ++ c.lockedBit.toList ++ c.achBit.toList ++ c.lostBit.toList)).all
    (fun b => decide (b ≤ 31))

/-- The three bypass-select bits are distinct (00_scope.md R9). -/
def Config.bypassBitsDistinct (c : Config) : Bool := decide c.bypassBit.toList.Nodup

/-- The six latches are distinct, the three lock bits are distinct, and no lock bit is a latch
(00_scope.md R9, 41_pll_monitor.md R146). -/
def Config.statusBitsDistinct (c : Config) : Bool :=
  decide (c.lockedBit.toList ++ c.achBit.toList ++ c.lostBit.toList).Nodup

/-- 1 ≤ `SETTLE_BOUND` ≤ 2^32 − 1 (00_scope.md R9, 42_settle_and_lifecycle.md R172). -/
def Config.settleBoundOk (c : Config) : Bool := decide (1 ≤ c.settleBound) && decide (c.settleBound < 2 ^ 32)

/-- Every condition of 00_scope.md R9 and every clause of 10_state.md R34, checked. -/
def Config.conditions (c : Config) : List Bool :=
  [ c.enoughNodes, c.enoughOscs, c.menusInRange, c.acyclic, c.pllMenusAreOscs, c.derivedMenusAreNodes, c.threePlls,
    c.oscsOnce, c.deepEnough, c.descriptorsWf, c.regmapAligned, c.regmapAboveBase, c.regmapBits,
    c.bypassBitsDistinct, c.statusBitsDistinct, c.settleBoundOk ]

/-- The configuration is well-formed. -/
def Config.wf (c : Config) : Bool := c.conditions.all (fun b => b)

end Sys2Proof
end

