-- ==== Sys2Proof/Machine/Inputs.lean ====
section
/-!
DEFINITION. What the machine does next: one input taken, or an accepted operation run (10_state.md R25, 30_encoding.md
R80, R83), and the command word placed where the next step takes it. Step.lean only calls these.
-/

namespace Sys2Proof.Machine

/-- The block is IDLE and takes the oldest pending input (R80). -/
def State.takeInput (s : State) : Input → Host.Outcome State Fault Refusal
  | .command cw resetAfter => exec (decode cw) (s.accept cw resetAfter)
  | .hostWrite addr w => s.hostWrite addr w
  | .hostRead addr => s.hostRead addr
  | .hardware m => .next (s.hwMove m)
  | .reset => .next s.blockReset

/-- The next step of a machine whose configuration is well-formed. In RUN the accepted operation runs and no input is
taken (R83); in IDLE with nothing pending the block does nothing (60_exceptions.md R218). -/
def State.advance (s : State) : Host.Outcome State Fault Refusal :=
  match s.phase with
  | .run => exec s.latched s
  | .idle =>
    match s.inputs with
    | [] => .next s
    | i :: rest => { s with inputs := rest }.takeInput i

/-- A configuration that is not well-formed is refused before anything runs (10_state.md R34, 60_exceptions.md
R219 (a)). -/
def State.guardedAdvance (s : State) : Host.Outcome State Fault Refusal :=
  if s.cfg.wf then s.advance else .refused .malformedConfiguration

/-- The block IDLE with the command word `cw` as the oldest pending input. -/
def State.withCommand (s : State) (cw : CommandWord) : State :=
  { s with phase := .idle, inputs := .command cw none :: s.inputs }

end Sys2Proof.Machine
end

