-- ==== Sys2Proof/Machine/Step.lean ====
section
/-! DEFINITION. One step of the machine, and an instruction placed where the next step takes it. -/

namespace Sys2Proof.Machine

/-- One step: an operation of the block from acceptance to response, an action of the host, a move of the clock
hardware, or a reset (00_scope.md R16). -/
def step (s : State) : Host.Outcome State Fault Refusal := s.guardedAdvance

/-- `s` with the command word whose bits are the low `nbits` bits of `w` presented on the host port, so that the next
step accepts and runs it. -/
def State.withFetchWord (s : State) (nbits w : Nat) : State := s.withCommand (BitVec.ofNat 68 (w % 2 ^ nbits))

end Sys2Proof.Machine
end

