-- ==== Sys2Proof/Machine/Pseudo.lean ====
section
/-!
DEFINITION. The three pseudo-operations of 30_encoding.md R94: host-side macros over operations, none decoded by the
block. R94 does not say what may come between the operations of a macro, nor what a macro yields when one of them ends
without a response: the model's choices are in notes/assumptions/15.md.
-/

namespace Sys2Proof.Machine

/-- How a macro ends. -/
inductive MacroEnd (α : Type) where
  /-- It answers `a`. -/
  | answer (a : α) (s : State)
  /-- An operation answered a failure, which is the macro's failure. -/
  | failure (status : BitVec 3) (s : State)
  /-- An operation ended without a response. Only a reset during it does that, and `ask` schedules none
  (notes/assumptions/15.md), so that no macro of this file ends so. -/
  | noResponse (s : State)
  /-- An operation was stuck. -/
  | stuck (f : Fault)
  /-- An operation was refused. -/
  | refused (r : Refusal)

/-- Issue one operation and go on with the value of its success. The model's choice, R94 being silent (DESIGN CHOICE,
notes/assumptions/15.md): the block accepts the command at once, whatever `phase` says; no reset is scheduled during it;
the pending inputs wait, so that nothing comes between two operations of a macro but what the clock hardware does before
each transfer; and the first operation that fails ends the macro. -/
def ask {α : Type} (i : Instr) (s : State) (k : Word → State → MacroEnd α) : MacroEnd α :=
  match exec i (s.accept (encode i) none) with
  | .fault f => .stuck f
  | .refused r => .refused r
  | .next t =>
    match t.resp with
    | none => .noResponse t
    | some _ => if t.status = okCode then k t.value t else .failure t.status t

/-- `PLL_STATE p`: PLL_BYPASSED, then PLL_LOCKED, then the classification of 42_settle_and_lifecycle.md R185. The model's
choice: after a PLL_BYPASSED that fails, PLL_LOCKED is not issued; R94 says only that a failure of either is the macro's
(DESIGN CHOICE, notes/assumptions/15.md). -/
def pllState (a : Word) (s : State) : MacroEnd Observed :=
  ask (.pllBypassed a) s fun y s =>
    ask (.pllLocked a) s fun l s => .answer (classify (y == 1#32) (l == 1#32)) s

/-- `CLEAR_ALL`: STAT_CLEAR of every latch. -/
def clearAll (s : State) : MacroEnd Word := ask (.statClear (allowedMask s.cfg)) s fun v s => .answer v s

/-- `WAIT_LOCK p, k`: at most `k` PLL_LOCKED, stopping at the first that answers 1; false is "not locked after `k`
polls". -/
def waitLock (a : Word) : Nat → State → MacroEnd Bool
  | 0, s => .answer false s
  | k + 1, s => ask (.pllLocked a) s fun l s => if l = 1#32 then .answer true s else waitLock a k s

end Sys2Proof.Machine
end

