-- ==== Sys2Proof/Safety.lean ====
section
/-!
DEFINITION. The terms that statements about the machine are made in: how an operation answers, what it leaves
unchanged, invariants, and a reference resolver in exact natural-number arithmetic to hold RESOLVE against.
-/

namespace Sys2Proof.Machine

/-! ## How an operation answers -/

/-- The operation that ended in `t` answered OK with the value `v` (30_encoding.md R82, 60_exceptions.md R201). -/
def AnsweredOk (t : State) (v : Word) : Prop :=
  t.status = 0#3 ∧ t.value = v ∧ t.phase = .idle ∧ t.resp = some (packResponse 0#3 v)

/-- The operation that ended in `t` answered the failure of code `code`; its `value` is whatever it is
(60_exceptions.md R201, R209). -/
def AnsweredFailure (t : State) (code : BitVec 3) : Prop :=
  t.status = code ∧ t.phase = .idle ∧ t.resp = some (packResponse code t.value)

/-- The events that the operation from `s` to `t` issued (20_memory.md R66): `t` holds them after those of `s`. -/
def Issued (s t : State) (es : List Event) : Prop := t.events = s.events ++ es

/-! ## What it leaves unchanged -/

/-- The static tables, the request registers and the oscillator table are the same. -/
def KeepsBlock (s t : State) : Prop :=
  t.cfg = s.cfg ∧ t.opR = s.opR ∧ t.aR = s.aR ∧ t.bR = s.bR ∧ t.osc = s.osc

/-- The transient registers are the same (10_state.md R24). -/
def KeepsTransient (s t : State) : Prop :=
  t.acc = s.acc ∧ t.sp = s.sp ∧ t.stk = s.stk ∧ t.iter = s.iter ∧ t.rmw = s.rmw

/-- Every register of the register space reads the same. -/
def KeepsRegisters (s t : State) : Prop := ∀ addr, t.readReg addr = s.readReg addr

/-- The lifecycle, the pending inputs, the schedules and the host's word are the same. -/
def KeepsSurroundings (s t : State) : Prop :=
  t.life = s.life ∧ t.inputs = s.inputs ∧ t.hw = s.hw ∧ t.resetIn = s.resetIn ∧ t.hostWord = s.hostWord

/-- Nothing is scheduled to happen during the coming operation: no move of the clock hardware and no reset. -/
def Undisturbed (s : State) : Prop := s.hw = [] ∧ s.resetIn = none

/-! ## Invariants -/

/-- The minimum, maximum and active flag of every oscillator are the constants of `OSC_DEFAULT` (10_state.md R22). -/
def OscConstants (s : State) : Prop :=
  s.osc.map (fun o => (o.min, o.max, o.active)) = s.cfg.oscDefault.map (fun o => (o.min, o.max, o.active))

/-- What every step keeps: the register space is in canonical form, the oscillator table has its constants, and the
status register holds a code that can be produced (60_exceptions.md R201). -/
def Invariant (s : State) : Prop := s.mem.wf = true ∧ OscConstants s ∧ s.status.toNat ≤ 4

/-- The registers of a node's multiplexer and ratio fields (10_state.md R44). -/
def ratioAddresses : Node → List Word
  | .osc _ => []
  | .pll _ mux _ numer denom => [mux.addr, numer.addr, denom.addr]
  | .derived mux _ div _ => [mux.addr, div.addr]

/-- The gate of a node (10_state.md R32, R45). -/
def nodeGate : Node → Option Gate
  | .osc _ => none
  | .pll _ _ _ _ _ => none
  | .derived _ _ _ gate => gate

/-- The registers of a node's fields and gate (10_state.md R30). -/
def nodeAddresses (node : Node) : List Word := ratioAddresses node ++ ((nodeGate node).map Gate.addr).toList

/-- The registers of the plain class (20_memory.md R58 (a)). -/
def plainAddresses (c : Config) : List Word := [c.ctrlAddr, c.bypassAddr] ++ c.topo.flatMap nodeAddresses

/-- The finite set of addresses the block issues transfers to (20_memory.md R59). -/
def blockAddresses (c : Config) : List Word := [c.statusAddr, c.statclrAddr, c.statAddr] ++ plainAddresses c

/-- Every register is in exactly one class (20_memory.md R58): no plain register has status bits, and the busy bit's
register is not the latches'. -/
def oneClass (c : Config) : Bool :=
  (plainAddresses c).all (fun a => !isStatusReg c a) &&
    decide (c.statAddr ≠ c.statusAddr) && decide (c.statAddr ≠ c.statclrAddr)

/-- No gate bit is the safe-mode bit or a bypass-select bit. -/
def gatesApart (c : Config) : Bool :=
  c.topo.all fun node =>
    match nodeGate node with
    | none => true
    | some g =>
      !(g.addr == c.ctrlAddr && g.bit == c.safemodeBit) &&
        !(g.addr == c.bypassAddr && c.bypassBit.toList.contains g.bit)

/-- The invariants that tie the registers to the lifecycle state of PLL `p` (42_settle_and_lifecycle.md R185). -/
def LifeAgrees (s : State) (p : PllId) : Prop :=
  ((s.life.get p = .bypassed ∨ s.life.get p = .reconfiguring) ↔ s.byp p = true) ∧
    (s.life.get p = .locked ↔ s.byp p = false ∧ s.lck p = true) ∧
    (s.life.get p = .locking ↔ s.byp p = false ∧ s.lck p = false)

/-- The busy bit is 1 at most since a write to a register of the clock hardware (42_settle_and_lifecycle.md R184). -/
def BusyWithinEnvelope (s : State) : Prop := s.busy = true → s.disturbed = true

/-- A move of the clock hardware that its lifecycle rules give: every move but the oracle's (R187, 20_memory.md
R67). -/
def isLifecycleMove : HwMove → Bool
  | .lockAcquired _ => true
  | .lockLost _ => true
  | .lockBitWanders _ _ => true
  | .busyRises => true
  | .busyFalls => true
  | .drive _ _ => false

/-- The state as the host can observe it and later operations can depend on it: the transient registers wiped out
(10_state.md R24, 30_encoding.md R84). -/
def State.lasting (s : State) : State := { s with acc := 0#64, sp := 0, stk := [], iter := 0#32, rmw := 0#32 }

/-- Two steps end the same way, in states that differ at most in the transient registers. -/
def SameLasting (o1 o2 : Host.Outcome State Fault Refusal) : Prop :=
  match o1, o2 with
  | .next t1, .next t2 => t1.lasting = t2.lasting
  | .fault f1, .fault f2 => f1 = f2
  | .refused r1, .refused r2 => r1 = r2
  | _, _ => False

/-- A transfer is a write. -/
def Event.isWrite : Event → Bool
  | .rd _ _ => false
  | .wr _ _ => true

/-- The address of a transfer. -/
def Event.addr : Event → Word
  | .rd a _ => a
  | .wr a _ => a

/-- The words that the reads among some events returned: the oracle's answers (20_memory.md R67). -/
def answersOf (es : List Event) : List Word :=
  es.filterMap fun e =>
    match e with
    | .rd _ w => some w
    | .wr _ _ => none

/-- The state that a transfer leaves the register space in, the clock hardware moving first (20_memory.md R53, R54,
R61 (d)). -/
def afterTransfer (s : State) : Event → State
  | .rd _ _ => s.pollHw
  | .wr a v => s.pollHw.writeReg a v

/-- The state that a sequence of transfers leaves the register space in. -/
def afterTransfers (s : State) (es : List Event) : State := es.foldl afterTransfer s

/-- The clock hardware's side of two states is the same: every register, the lifecycle and what it does next. -/
def SameSurroundings (s t : State) : Prop := KeepsRegisters s t ∧ t.life = s.life ∧ t.hw = s.hw

/-! ## The settle waiter, read by read (42_settle_and_lifecycle.md R172) -/

/-- The word that the next read of `ADDR_STAT` returns, once the hardware has made its moves. -/
def nextStatWord (s : State) : Word := s.pollHw.readReg s.cfg.statAddr

/-- The next read of `ADDR_STAT` finds the busy bit 1. -/
def nextReadBusy (s : State) : Bool := (nextStatWord s).getLsbD s.cfg.busyBit

/-- The state after one more iteration: one read of `ADDR_STAT`, counted. -/
def afterRead (s : State) : State := (s.pollHw.record (.rd s.cfg.statAddr (nextStatWord s))).countRead

/-- The state after `k` iterations of the poll loop. -/
def afterReads : Nat → State → State
  | 0, s => s
  | k + 1, s => afterReads k (afterRead s)

/-! ## The root a walk reaches (40_resolver.md R110, R113) -/

/-- The oscillator that a walk from node `n` comes to, on fewer than `fuel` edges: each multiplexer is read once on the
way down, the clock hardware moving before each read. -/
def reachedRoot : Nat → Nat → State → Option Nat
  | 0, _, _ => none
  | fuel + 1, n, s =>
    let below (mux : Field) (menu : Menu) : Option Nat :=
      (menuLookup menu (extract (s.pollHw.readReg mux.addr) mux).toNat).bind fun m => reachedRoot fuel m s.pollHw
    match s.cfg.topo[n]? with
    | none => none
    | some (.osc i) => some i
    | some (.pll _ mux menu _ _) => below mux menu
    | some (.derived mux menu _ _) => below mux menu

/-! ## The reference resolver: exact arithmetic over the words of the register space (R110 to R123) -/

/-- The raw value of a field in a word, by division: bits `lsb` and up, below 2^`width` (10_state.md R31). -/
def rawField (w : Word) (f : Field) : Nat := w.toNat / 2 ^ f.lsb % 2 ^ f.width

/-- The exact frequency of a PLL stage, or an overflow (R114, R116). -/
def exactPll (f n d : Nat) : Except Failure Nat :=
  if f * (n + 1) / (d + 1) < 2 ^ 32 then .ok (f * (n + 1) / (d + 1)) else .error .arithmeticOverflow

/-- The exact frequency of a derived stage (R115). -/
def exactDerived (f r : Nat) : Except Failure Nat := .ok (f / (r + 1))

/-- The frequency of node `n` that the fields imply, or the failure, on a walk of fewer than `fuel` edges; none where
the walk has nowhere to go. -/
def exactResolve (c : Config) (osc : List Oscillator) (word : Word → Word) : Nat → Nat → Option (Except Failure Nat)
  | 0, _ => none
  | fuel + 1, n =>
    match c.topo[n]? with
    | none => none
    | some (.osc i) => (osc[i]?).map fun o => .ok o.freq.toNat
    | some (.pll _ mux menu numer denom) =>
      match menuLookup menu (rawField (word mux.addr) mux) with
      | none => some (.error .badArgument)
      | some m =>
        (exactResolve c osc word fuel m).map fun r =>
          r.bind fun f => exactPll f (rawField (word numer.addr) numer) (rawField (word denom.addr) denom)
    | some (.derived mux menu div _) =>
      match menuLookup menu (rawField (word mux.addr) mux) with
      | none => some (.error .badArgument)
      | some m =>
        (exactResolve c osc word fuel m).map fun r =>
          r.bind fun f => exactDerived f (rawField (word div.addr) div)

/-- The addresses that a resolution of node `n` reads, in the order of R123; a failure ends them (60_exceptions.md R212). -/
def exactReads (c : Config) (osc : List Oscillator) (word : Word → Word) : Nat → Nat → List Word
  | 0, _ => []
  | fuel + 1, n =>
    match c.topo[n]? with
    | none => []
    | some (.osc _) => []
    | some (.pll _ mux menu numer denom) =>
      match menuLookup menu (rawField (word mux.addr) mux) with
      | none => [mux.addr]
      | some m =>
        match exactResolve c osc word fuel m with
        | some (.ok _) => [mux.addr] ++ exactReads c osc word fuel m ++ [numer.addr, denom.addr]
        | _ => [mux.addr] ++ exactReads c osc word fuel m
    | some (.derived mux menu div _) =>
      match menuLookup menu (rawField (word mux.addr) mux) with
      | none => [mux.addr]
      | some m =>
        match exactResolve c osc word fuel m with
        | some (.ok _) => [mux.addr] ++ exactReads c osc word fuel m ++ [div.addr]
        | _ => [mux.addr] ++ exactReads c osc word fuel m

/-- The answer of RESOLVE in `t` is the reference result `r`: the frequency, or the failure's code. -/
def AnswersExactly (t : State) (r : Except Failure Nat) : Prop :=
  match r with
  | .ok f => f < 2 ^ 32 ∧ AnsweredOk t (BitVec.ofNat 32 f)
  | .error k => AnsweredFailure t k.code

end Sys2Proof.Machine
end

