-- ==== Sys2Proof/Certificates/Slice0/Obligations.lean ====
section
/-!
DEFINITION. The statements for the provers, from the numbered rules of spec/. OBLIGATIONS.json lists them. "Whatever the
hardware does" in a docstring means: for every schedule of hardware moves that the state holds.
-/

open Sys2Proof Sys2Proof.Machine

/-! ## Encoding -/

/-- The words of the spec's examples, written out from R81 and R85, decode to what they stand for. -/
def Obligations.SpecWordsDecode : Prop :=
  decode 0x10000000600000000#68 = .resolve 6#32 ∧
    decode 0x20000000002FAF080#68 = .oscSet 0#32 50000000#32 ∧
    decode 0x30000000100000000#68 = .pllLocked 1#32 ∧
    decode 0x50000000900000000#68 = .statClear 9#32 ∧
    decode 0x60000000600000000#68 = .clkEnable 6#32 ∧
    decode 0x90000000000000000#68 = .settleWait ∧
    decode 0xFFFFFFFFFFFFFFFFF#68 = .reservedF

/-- Decode and encode agree: every instruction comes back from its encoding, and every command word comes back from
the instruction it decodes to, but for argument fields that the operation does not read (R81, R85, R86, R89). -/
def Obligations.DecodeAndEncodeAgree : Prop :=
  (∀ i : Instr, decode (encode i) = i) ∧
    ∀ cw : CommandWord,
      opField (encode (decode cw)) = opField cw ∧
        (1 ≤ (opField cw).toNat → (opField cw).toNat ≤ 8 → aField (encode (decode cw)) = aField cw) ∧
        ((opField cw).toNat = 2 → bField (encode (decode cw)) = bField cw)

/-- R86: the opcode alone selects the operation, for every 68-bit word. -/
def Obligations.OpcodeAloneSelects : Prop :=
  (∀ cw : CommandWord, (decode cw).opcode = opField cw) ∧
    ∀ cw cw' : CommandWord, opField cw = opField cw' → (decode cw).mnemonic = (decode cw').mnemonic

/-- R89: `b` is not read except in OSC_SET, and `a` is not read in SETTLE_WAIT (nor by a reserved opcode, R88). -/
def Obligations.UnusedFieldsIgnored : Prop :=
  ∀ (op : BitVec 4) (a a' b b' : Word),
    (op ≠ 2#4 → decode (packCommand op a b) = decode (packCommand op a b')) ∧
      (op = 0#4 ∨ 9#4 ≤ op → decode (packCommand op a b) = decode (packCommand op a' b'))

/-! ## The sequencer -/

/-- A step runs the decoded command: in IDLE, the oldest input being a command word, the step accepts it (R80, R81:
IDLE to RUN, the request registers latched) and runs the operation it decodes to. Three clauses are the model's choice and
no rule's: that the event record starts anew and that the response port is emptied (notes/assumptions/6.md), and that the
moment of a reset comes with the command (notes/assumptions/11.md). -/
def Obligations.StepRunsTheDecodedCommand : Prop :=
  ∀ (s : State) (cw : CommandWord) (r : Option Nat) (rest : List Input),
    s.cfg.wf = true → s.phase = .idle → s.inputs = .command cw r :: rest →
      step s = exec (decode cw)
        { s with
          inputs := rest, phase := .run, opR := opField cw, aR := aField cw, bR := bField cw, events := [],
          resp := none, resetIn := r }

/-- R83: while RUN the block accepts no command; it runs the operation it has latched, the pending inputs wait, and it
is IDLE afterwards. -/
def Obligations.RunningBlockAcceptsNothing : Prop :=
  ∀ s t : State, s.cfg.wf = true → s.phase = .run → step s = .next t →
    step s = exec s.latched s ∧ t.inputs = s.inputs ∧ t.phase = .idle

/-- R218: when IDLE, with nothing pending, the block does nothing. -/
def Obligations.IdleBlockDoesNothing : Prop :=
  ∀ s : State, s.cfg.wf = true → s.phase = .idle → s.inputs = [] → step s = .next s

/-- R219 (a), R34: a configuration that is not well-formed is refused before anything runs. -/
def Obligations.MalformedConfigurationIsRefused : Prop :=
  ∀ s : State, s.cfg.wf = false → step s = .refused .malformedConfiguration

/-- R80, R25: an operation that reset does not end leaves the block IDLE with exactly one response presented, that of
its `status` and `value`, and a status that R201 gives. -/
def Obligations.EveryOperationResponds : Prop :=
  ∀ (i : Instr) (s t : State), s.resetIn = none → exec i s = .next t →
    t.phase = .idle ∧ t.resp = some (packResponse t.status t.value) ∧ t.status.toNat ≤ 4

/-- R200: every operation of a well-formed configuration, in a machine whose oscillator table has `N_OSC` entries, ends
in a next state: no operation faults, is refused or hangs (R219). -/
def Obligations.EveryOperationEnds : Prop :=
  ∀ (i : Instr) (s : State), s.cfg.wf = true → s.osc.length = s.cfg.nOsc → ∃ t, exec i s = .next t

/-! ## OSC_SET -/

/-- R125: OSC_SET stores any frequency, touches nothing else of the table and makes no register access. -/
def Obligations.OscSetStoresTheFrequency : Prop :=
  ∀ (s : State) (a b : Word), s.resetIn = none → a.toNat < s.cfg.nOsc →
    ∃ t, exec (.oscSet a b) s = .next t ∧ AnsweredOk t 0#32 ∧ Issued s t [] ∧
      (∀ i, t.osc[i]? = (s.osc[i]?).map fun o => if i = a.toNat then { o with freq := b } else o) ∧
      t.cfg = s.cfg ∧ t.opR = s.opR ∧ t.aR = s.aR ∧ t.bR = s.bR ∧ KeepsTransient s t ∧ KeepsRegisters s t ∧
      KeepsSurroundings s t

/-- R112, R125: after OSC_SET, RESOLVE of the oscillator's node answers the new frequency, with no register
access. -/
def Obligations.OverrideIsReadBack : Prop :=
  ∀ (s t : State) (a b n : Word), s.resetIn = none → s.osc.length = s.cfg.nOsc → a.toNat < s.cfg.nOsc →
    s.cfg.topo[n.toNat]? = some (.osc a.toNat) → exec (.oscSet a b) s = .next t →
      ∃ u, exec (.resolve n) t = .next u ∧ AnsweredOk u b ∧ Issued t u []

/-! ## The monitor's queries -/

/-- R141: PLL_LOCKED makes one read of `ADDR_STATUS` and answers the one bit `BIT_LOCKED[p]` of the word read, whatever
the hardware does before the read. -/
def Obligations.PllLockedAnswersTheLockBit : Prop :=
  ∀ (s : State) (p : PllId), s.resetIn = none →
    ∃ t, exec (.pllLocked (pllOperand p)) s = .next t ∧
      AnsweredOk t (boolWord ((s.pollHw.readReg s.cfg.statusAddr).getLsbD (s.cfg.lockedBit.get p))) ∧
      Issued s t [.rd s.cfg.statusAddr (s.pollHw.readReg s.cfg.statusAddr)] ∧
      KeepsBlock s t ∧ KeepsTransient s t ∧ KeepsRegisters s.pollHw t ∧ KeepsSurroundings s.pollHw t

/-- R142, R143: PLL_BYPASSED reads `ADDR_CTRL`, then `ADDR_BYPASS`, always both, and answers the or of the two bits,
whatever the hardware does before each read. -/
def Obligations.PllBypassedAnswersEitherBit : Prop :=
  ∀ (s : State) (p : PllId), s.resetIn = none →
    ∃ t, exec (.pllBypassed (pllOperand p)) s = .next t ∧
      AnsweredOk t (boolWord ((s.pollHw.readReg s.cfg.ctrlAddr).getLsbD s.cfg.safemodeBit ||
        (s.pollHw.pollHw.readReg s.cfg.bypassAddr).getLsbD (s.cfg.bypassBit.get p))) ∧
      Issued s t [.rd s.cfg.ctrlAddr (s.pollHw.readReg s.cfg.ctrlAddr),
        .rd s.cfg.bypassAddr (s.pollHw.pollHw.readReg s.cfg.bypassAddr)] ∧
      KeepsBlock s t ∧ KeepsTransient s t ∧ KeepsRegisters s.pollHw.pollHw t ∧ KeepsSurroundings s.pollHw.pollHw t

/-- R143, the truth table: undisturbed, PLL_BYPASSED answers 0 exactly when both bits are 0. -/
def Obligations.BypassTruthTable : Prop :=
  ∀ (s : State) (p : PllId), Undisturbed s →
    ∃ t, exec (.pllBypassed (pllOperand p)) s = .next t ∧
      (s.safeMode = false → s.bypassSelect p = false → AnsweredOk t 0#32) ∧
      (s.safeMode = false → s.bypassSelect p = true → AnsweredOk t 1#32) ∧
      (s.safeMode = true → s.bypassSelect p = false → AnsweredOk t 1#32) ∧
      (s.safeMode = true → s.bypassSelect p = true → AnsweredOk t 1#32)

/-! ## STAT_CLEAR -/

/-- R144: a mask within `ALLOWED_MASK`, the empty one too, is written to `ADDR_STATCLR` in one write; there is no read.
The registers are what the write's class rule makes of them. -/
def Obligations.StatClearWritesTheMask : Prop :=
  ∀ (s : State) (a : Word), s.resetIn = none → a &&& ~~~(allowedMask s.cfg) = 0#32 →
    ∃ t, exec (.statClear a) s = .next t ∧ AnsweredOk t 0#32 ∧ Issued s t [.wr s.cfg.statclrAddr a] ∧
      KeepsBlock s t ∧ KeepsTransient s t ∧ KeepsRegisters (s.pollHw.writeReg s.cfg.statclrAddr a) t ∧
      KeepsSurroundings s.pollHw t

/-- R58 (b), R145: the status-clear write makes each latch `L & ~m` at its position, and leaves every lock bit and every
register but the status and status-clear registers as they were (notes/assumptions/9.md for a register that has bits of
several classes). -/
def Obligations.StatusClearClearsNamedLatches : Prop :=
  ∀ (s : State) (m : Word), s.cfg.wf = true →
    let t := s.writeReg s.cfg.statclrAddr m
    (∀ p : PllId, ∀ b, b = s.cfg.achBit.get p ∨ b = s.cfg.lostBit.get p →
      (t.readReg s.cfg.statusAddr).getLsbD b = ((s.readReg s.cfg.statusAddr).getLsbD b && !m.getLsbD b)) ∧
      (∀ p : PllId, t.lck p = s.lck p) ∧
      ∀ a, a ≠ s.cfg.statusAddr → a ≠ s.cfg.statclrAddr → t.readReg a = s.readReg a

/-- R146, R144: `ALLOWED_MASK` is the six latches and no other bit: a mask is accepted exactly when each of its set
bits is the position of a latch. -/
def Obligations.MaskAcceptedExactlyWithinLatches : Prop :=
  ∀ (c : Config) (a : Word),
    (maskAllowed c a = true ↔ ∀ b, a.getLsbD b = true → ∃ p : PllId, b = c.achBit.get p ∨ b = c.lostBit.get p)

/-! ## Clock gates -/

/-- R150: the shared check: an id out of range is BAD_ARGUMENT, a node that is not a derived node with a gate is
UNSUPPORTED_CAPABILITY, and neither makes a register access or changes anything but the response. -/
def Obligations.GateChecksPrecedeAccess : Prop :=
  ∀ (s : State) (a : Word) (i : Instr), s.resetIn = none → i = .clkEnable a ∨ i = .clkDisable a ∨ i = .clkEnabled a →
    ∃ t, exec i s = .next t ∧
      (s.cfg.nNodes ≤ a.toNat → AnsweredFailure t 1#3) ∧
      (a.toNat < s.cfg.nNodes → gateOf s.cfg a.toNat = none → AnsweredFailure t 3#3) ∧
      ((s.cfg.nNodes ≤ a.toNat ∨ gateOf s.cfg a.toNat = none) →
        Issued s t [] ∧ KeepsBlock s t ∧ KeepsTransient s t ∧ KeepsRegisters s t ∧ KeepsSurroundings s t)

/-- R147, R55: CLK_ENABLE reads the gate register and writes the word read with the gate bit set, whatever the hardware
does before each transfer; in a plain register that leaves the gate bit 1 and the other bits as read. -/
def Obligations.ClkEnableSetsTheGateBit : Prop :=
  ∀ (s : State) (a : Word) (g : Gate), s.resetIn = none → a.toNat < s.cfg.nNodes →
    gateOf s.cfg a.toNat = some g →
      let w := s.pollHw.readReg g.addr
      let u := s.pollHw.pollHw
      ∃ t, exec (.clkEnable a) s = .next t ∧ AnsweredOk t 0#32 ∧
        Issued s t [.rd g.addr w, .wr g.addr (w ||| bitMask g.bit)] ∧
        KeepsBlock s t ∧ t.acc = s.acc ∧ t.sp = s.sp ∧ t.stk = s.stk ∧ t.iter = s.iter ∧ t.rmw = w ∧
        KeepsRegisters (u.writeReg g.addr (w ||| bitMask g.bit)) t ∧ KeepsSurroundings u t ∧
        (isStatusReg s.cfg g.addr = false →
          (∀ b, (t.readReg g.addr).getLsbD b = ((decide (b < 32) && decide (b = g.bit)) || w.getLsbD b)) ∧
            ∀ x, x ≠ g.addr → t.readReg x = u.readReg x)

/-- R148, R56: CLK_DISABLE reads the gate register and writes the word read with the gate bit cleared. -/
def Obligations.ClkDisableClearsTheGateBit : Prop :=
  ∀ (s : State) (a : Word) (g : Gate), s.resetIn = none → a.toNat < s.cfg.nNodes →
    gateOf s.cfg a.toNat = some g →
      let w := s.pollHw.readReg g.addr
      let u := s.pollHw.pollHw
      ∃ t, exec (.clkDisable a) s = .next t ∧ AnsweredOk t 0#32 ∧
        Issued s t [.rd g.addr w, .wr g.addr (w &&& ~~~(bitMask g.bit))] ∧
        KeepsBlock s t ∧ t.acc = s.acc ∧ t.sp = s.sp ∧ t.stk = s.stk ∧ t.iter = s.iter ∧ t.rmw = w ∧
        KeepsRegisters (u.writeReg g.addr (w &&& ~~~(bitMask g.bit))) t ∧ KeepsSurroundings u t ∧
        (isStatusReg s.cfg g.addr = false →
          (∀ b, (t.readReg g.addr).getLsbD b = (w.getLsbD b && !decide (b = g.bit))) ∧
            ∀ x, x ≠ g.addr → t.readReg x = u.readReg x)

/-- R149: CLK_ENABLED answers the gate bit as the register holds it at its one read. -/
def Obligations.ClkEnabledReadsTheGateBit : Prop :=
  ∀ (s : State) (a : Word) (g : Gate), s.resetIn = none → a.toNat < s.cfg.nNodes →
    gateOf s.cfg a.toNat = some g →
      ∃ t, exec (.clkEnabled a) s = .next t ∧
        AnsweredOk t (boolWord ((s.pollHw.readReg g.addr).getLsbD g.bit)) ∧
        Issued s t [.rd g.addr (s.pollHw.readReg g.addr)] ∧
        KeepsBlock s t ∧ KeepsTransient s t ∧ KeepsRegisters s.pollHw t ∧ KeepsSurroundings s.pollHw t

/-- R57, R258: a change made to a plain gate register between the two halves of CLK_ENABLE is lost: the word written is
the stale one. -/
def Obligations.ChangeBetweenHalvesIsLost : Prop :=
  ∀ (s : State) (a x : Word) (g : Gate) (rest : List (List HwMove)), s.resetIn = none → a.toNat < s.cfg.nNodes →
    gateOf s.cfg a.toNat = some g → isStatusReg s.cfg g.addr = false →
    s.hw = [] :: [.drive g.addr x] :: rest →
      ∃ t, exec (.clkEnable a) s = .next t ∧ t.readReg g.addr = s.readReg g.addr ||| bitMask g.bit

/-- R58, R144, R147, R148: STAT_CLEAR, CLK_ENABLE and CLK_DISABLE are idempotent: undisturbed, doing one twice leaves
every register as doing it once, in a configuration whose registers each have one class (R58;
notes/assumptions/9.md). -/
def Obligations.WritingOperationsAreIdempotent : Prop :=
  ∀ (s t u : State) (i : Instr) (a : Word), Undisturbed s → s.cfg.wf = true → oneClass s.cfg = true →
    i = .statClear a ∨ i = .clkEnable a ∨ i = .clkDisable a →
    exec i s = .next t → exec i t = .next u → KeepsRegisters t u ∧ u.status = t.status

/-! ## SETTLE_WAIT -/

/-- R172 (a): where read `k + 1` is the first to find the busy bit 0, and it is permitted, SETTLE_WAIT issues exactly
`k + 1` reads of `ADDR_STAT` and answers OK, the last permitted read included. -/
def Obligations.SettleSucceedsAtFirstClearRead : Prop :=
  ∀ (s : State) (k : Nat), s.resetIn = none → s.cfg.settleBound < 2 ^ 32 → k < s.cfg.settleBound →
    let s0 := { s with iter := 0#32 }
    (∀ j, j < k → nextReadBusy (afterReads j s0) = true) → nextReadBusy (afterReads k s0) = false →
      ∃ t, exec .settleWait s = .next t ∧ AnsweredOk t 0#32 ∧
        Issued s t ((List.range (k + 1)).map fun j => .rd s.cfg.statAddr (nextStatWord (afterReads j s0))) ∧
        t.iter.toNat = k + 1 ∧ KeepsBlock s t ∧ t.acc = s.acc ∧ t.sp = s.sp ∧ t.stk = s.stk ∧ t.rmw = s.rmw ∧
        KeepsRegisters (afterReads (k + 1) s0) t ∧ KeepsSurroundings (afterReads (k + 1) s0) t

/-- R172 (b), R205: where all `SETTLE_BOUND` reads find the busy bit 1, SETTLE_WAIT issues exactly that many and answers
TIMEOUT. -/
def Obligations.SettleTimesOutAtTheBound : Prop :=
  ∀ s : State, s.resetIn = none →
    let s0 := { s with iter := 0#32 }
    (∀ j, j < s.cfg.settleBound → nextReadBusy (afterReads j s0) = true) →
      ∃ t, exec .settleWait s = .next t ∧ AnsweredFailure t 4#3 ∧
        Issued s t ((List.range s.cfg.settleBound).map fun j =>
          .rd s.cfg.statAddr (nextStatWord (afterReads j s0))) ∧
        KeepsBlock s t ∧ t.acc = s.acc ∧ t.sp = s.sp ∧ t.stk = s.stk ∧ t.rmw = s.rmw ∧
        KeepsRegisters (afterReads s.cfg.settleBound s0) t ∧
        KeepsSurroundings (afterReads s.cfg.settleBound s0) t

/-- R66, R171, R219 (c): whatever the hardware does, SETTLE_WAIT issues between 1 and `SETTLE_BOUND` events, all reads of
`ADDR_STAT`, and answers OK or TIMEOUT. -/
def Obligations.SettleIsBounded : Prop :=
  ∀ s : State, s.resetIn = none → 1 ≤ s.cfg.settleBound →
    ∃ t es, exec .settleWait s = .next t ∧ Issued s t es ∧ 1 ≤ es.length ∧ es.length ≤ s.cfg.settleBound ∧
      (∀ e ∈ es, e.isWrite = false ∧ e.addr = s.cfg.statAddr) ∧ (AnsweredOk t 0#32 ∨ AnsweredFailure t 4#3)

/-! ## Reserved opcodes and failures -/

/-- R88: every command word with a reserved opcode is answered BAD_ARGUMENT, with no register access and no other
change. -/
def Obligations.ReservedOpcodesAnswerBadArgument : Prop :=
  ∀ (s : State) (op : BitVec 4) (a b : Word), s.resetIn = none → op = 0#4 ∨ 10#4 ≤ op →
    ∃ t, exec (decode (packCommand op a b)) s = .next t ∧ AnsweredFailure t 1#3 ∧ Issued s t [] ∧
      KeepsBlock s t ∧ KeepsTransient s t ∧ KeepsRegisters s t ∧ KeepsSurroundings s t

/-- R202 (a) to (d), (f), R204, R208, R210 (a): a failure that the command word alone decides is answered with its code,
no event is issued, and nothing but the response changes; each of the nine operations and seven reserved opcodes. -/
def Obligations.CommandWordFailuresAreImmediate : Prop :=
  ∀ (i : Instr) (s : State) (k : Failure), s.resetIn = none → commandFailure s.cfg i = some k →
    ∃ t, exec i s = .next t ∧ AnsweredFailure t k.code ∧ Issued s t [] ∧
      KeepsBlock s t ∧ KeepsTransient s t ∧ KeepsRegisters s t ∧ KeepsSurroundings s t

/-- R210: failures are precise: an operation that answers a failure has issued no write and has not changed the
oscillator table. -/
def Obligations.FailuresLeaveNoPartialEffect : Prop :=
  ∀ (i : Instr) (s t : State), s.resetIn = none → exec i s = .next t → t.status ≠ 0#3 →
    t.osc = s.osc ∧ ∃ es, Issued s t es ∧ ∀ e ∈ es, e.isWrite = false

/-- R202, R203, R204, R205, R201: which operation can answer which failure. -/
def Obligations.FailureKindsByOperation : Prop :=
  ∀ (i : Instr) (s t : State), s.resetIn = none → exec i s = .next t →
    (t.status = 2#3 → ∃ a, i = .resolve a) ∧
      (t.status = 3#3 → ∃ a, i = .clkEnable a ∨ i = .clkDisable a ∨ i = .clkEnabled a) ∧
      (t.status = 4#3 → i = .settleWait) ∧ (i = .settleWait → t.status ≠ 1#3)

/-! ## RESOLVE -/

/-- R112: RESOLVE of an oscillator node answers the stored frequency as it stands, with no register access and no
check. -/
def Obligations.ResolveOfOscillatorReadsTheTable : Prop :=
  ∀ (s : State) (a : Word) (i : Nat) (o : Oscillator), s.resetIn = none →
    s.cfg.topo[a.toNat]? = some (.osc i) → s.osc[i]? = some o →
      ∃ t, exec (.resolve a) s = .next t ∧ AnsweredOk t o.freq ∧ Issued s t [] ∧ KeepsBlock s t ∧
        t.iter = s.iter ∧ t.rmw = s.rmw ∧ KeepsRegisters s t ∧ KeepsSurroundings s t

/-- R110 to R120: undisturbed, RESOLVE answers exactly what the reference resolver computes in unbounded natural
numbers: the frequency, or the first failure; it reads exactly the reference's registers in the reference's order
(R123), writes none, and leaves everything but the response and the transient registers unchanged. -/
def Obligations.ResolveIsExact : Prop :=
  ∀ (s : State) (a : Word) (r : Except Failure Nat), Undisturbed s → s.cfg.wf = true → a.toNat < s.cfg.nNodes →
    exactResolve s.cfg s.osc s.readReg (s.cfg.maxDepth + 1) a.toNat = some r →
      ∃ t, exec (.resolve a) s = .next t ∧ AnswersExactly t r ∧
        Issued s t ((exactReads s.cfg s.osc s.readReg (s.cfg.maxDepth + 1) a.toNat).map fun x =>
          .rd x (s.readReg x)) ∧
        KeepsBlock s t ∧ t.iter = s.iter ∧ t.rmw = s.rmw ∧ KeepsRegisters s t ∧ KeepsSurroundings s t

/-- R34 (b), (g), R122: over a well-formed configuration the reference resolver always comes to a frequency or a
failure: the fuel never runs out. -/
def Obligations.WalksAlwaysEnd : Prop :=
  ∀ (c : Config) (osc : List Oscillator) (word : Word → Word) (n : Nat), c.wf = true → osc.length = c.nOsc →
    n < c.nNodes → ∃ r, exactResolve c osc word (c.maxDepth + 1) n = some r

/-- R122, R219 (c), R110: whatever the hardware does, RESOLVE issues at most 3 × `MAX_DEPTH` events, all reads, and `sp`
ends within `MAX_DEPTH`. (In a topology whose every menu is empty `MAX_DEPTH` may be 0, and then the one read of the
multiplexer field is still made.) -/
def Obligations.ResolveIsBounded : Prop :=
  ∀ (s : State) (a : Word), s.resetIn = none → s.cfg.wf = true → s.osc.length = s.cfg.nOsc →
    ∃ t es, exec (.resolve a) s = .next t ∧ Issued s t es ∧
      (es.length ≤ 3 * s.cfg.maxDepth ∨ s.cfg.maxDepth = 0 ∧ es.length = 1) ∧
      (∀ e ∈ es, e.isWrite = false) ∧ (a.toNat < s.cfg.nNodes → t.sp ≤ s.cfg.maxDepth)

/-- R120, R212: an unknown multiplexer value at the requested node fails right after the one read of the multiplexer
field: no parent is resolved and no ratio field is read, whatever the hardware does. -/
def Obligations.UnknownMultiplexerFailsAtOnce : Prop :=
  ∀ (s : State) (a : Word) (node : Node) (mux : Field), s.resetIn = none →
    s.cfg.topo[a.toNat]? = some node →
    ((∃ p menu numer denom, node = .pll p mux menu numer denom) ∨ ∃ menu div gate, node = .derived mux menu div gate) →
    menuLookup node.menu (extract (s.pollHw.readReg mux.addr) mux).toNat = none →
      ∃ t, exec (.resolve a) s = .next t ∧ AnsweredFailure t 1#3 ∧
        Issued s t [.rd mux.addr (s.pollHw.readReg mux.addr)] ∧ KeepsBlock s t ∧ KeepsRegisters s.pollHw t ∧
        KeepsSurroundings s.pollHw t

/-- R114, R116, R117, R118: a PLL stage is exact: the quotient of the exact product, or the overflow failure exactly
when the quotient exceeds 2^32 − 1. -/
def Obligations.PllStageIsExact : Prop :=
  ∀ (fp n d : Word) (s : State), n.toNat ≤ 4095 → d.toNat ≤ 63 →
    let q := fp.toNat * (n.toNat + 1) / (d.toNat + 1)
    (q < 2 ^ 32 → pllStage fp n d s = .ok (BitVec.ofNat 32 q) (s.setAcc (BitVec.ofNat 64 q))) ∧
      (2 ^ 32 ≤ q → pllStage fp n d s = .failed .arithmeticOverflow (s.setAcc (BitVec.ofNat 64 q)))

/-- R115: a derived stage divides by the raw divider plus one, so that 0 divides by 1, for every divider of up to 32
bits, and its result never exceeds the parent's frequency. -/
def Obligations.DerivedStageIsExact : Prop :=
  ∀ (fp r : Word) (s : State),
    ∃ v u, derivedStage fp r s = .ok v u ∧ v.toNat = fp.toNat / (r.toNat + 1) ∧ v.toNat ≤ fp.toNat ∧
      u = s.setAcc (v.setWidth 64)

/-- R117: a derived stage under a PLL stage that does not overflow equals one division by the product of the
divisors. -/
def Obligations.StagesDivideOnce : Prop :=
  ∀ (fp n d r v w : Word) (s t u : State), n.toNat ≤ 4095 → d.toNat ≤ 63 →
    pllStage fp n d s = .ok v t → derivedStage v r t = .ok w u →
      w.toNat = fp.toNat * (n.toNat + 1) / ((d.toNat + 1) * (r.toNat + 1))

/-- R119: a walk that reaches a root of 0 Hz answers 0 with status OK, whatever the other oscillators are and whatever the
hardware does; and over roots that are all 0 Hz no walk overflows and every walk that succeeds answers 0. -/
def Obligations.ZeroRootsResolveToZero : Prop :=
  (∀ (s : State) (a : Word) (i : Nat) (o : Oscillator), s.resetIn = none →
    reachedRoot (s.cfg.maxDepth + 1) a.toNat s = some i → s.osc[i]? = some o → o.freq = 0#32 →
      ∃ t, exec (.resolve a) s = .next t ∧ AnsweredOk t 0#32) ∧
  ∀ (s t : State) (a : Word), s.resetIn = none → (∀ o ∈ s.osc, o.freq = 0#32) → exec (.resolve a) s = .next t →
    t.status ≠ 2#3 ∧ (t.status = 0#3 → t.value = 0#32)

/-- R127: undisturbed, RESOLVE depends on nothing but the tables, the stored frequencies and the multiplexer and ratio
registers: not on a gate, bypass, safe-mode, lock or busy bit in another register, nor on the constants of the
oscillators. -/
def Obligations.ResolveReadsNothingElse : Prop :=
  ∀ (s1 s2 t1 t2 : State) (a : Word), Undisturbed s1 → Undisturbed s2 → s1.cfg = s2.cfg →
    s1.osc.map (fun o => o.freq) = s2.osc.map (fun o => o.freq) →
    (∀ node ∈ s1.cfg.topo, ∀ x ∈ ratioAddresses node, s1.readReg x = s2.readReg x) →
    exec (.resolve a) s1 = .next t1 → exec (.resolve a) s2 = .next t2 →
      t1.status = t2.status ∧ (t1.status = 0#3 → t1.value = t2.value)

/-! ## All operations -/

/-- R20, R22, R151, R210: no operation, failed or not, changes the oscillator table but OSC_SET, and none changes the
constants of the table. -/
def Obligations.OnlyOscSetChangesTheTable : Prop :=
  ∀ (i : Instr) (s t : State), s.resetIn = none → exec i s = .next t →
    ((∀ a b, i ≠ .oscSet a b) → t.osc = s.osc) ∧ (OscConstants s → OscConstants t)

/-- R66, R151, R110: only STAT_CLEAR, CLK_ENABLE and CLK_DISABLE write to the register space; undisturbed, every
other operation leaves every register as it was. -/
def Obligations.OnlyThreeOperationsWrite : Prop :=
  ∀ (i : Instr) (s t : State), s.resetIn = none → exec i s = .next t →
    (∀ a, i ≠ .statClear a ∧ i ≠ .clkEnable a ∧ i ≠ .clkDisable a) →
      (∃ es, Issued s t es ∧ ∀ e ∈ es, e.isWrite = false) ∧ (s.hw = [] → KeepsRegisters s t)

/-- R176: undisturbed, no operation of the block changes the lifecycle of a PLL. -/
def Obligations.OperationsDoNotMoveTheLifecycle : Prop :=
  ∀ (i : Instr) (s t : State), s.hw = [] → exec i s = .next t → t.life = s.life

/-- R59, R68: every transfer of every operation, whether reset ends it or not, goes to the finite set of addresses that
the configuration names. -/
def Obligations.TransfersStayInTheAddressSet : Prop :=
  ∀ (i : Instr) (s t : State), exec i s = .next t →
    ∃ es, Issued s t es ∧ ∀ e ∈ es, e.addr ∈ blockAddresses s.cfg

/-- R66, R67: an operation's outcome is a function of the command, the stored table and the answers to its reads: two
runs whose reads were answered alike issued the same events, and answered alike. -/
def Obligations.AnswersDetermineTheOutcome : Prop :=
  ∀ (i : Instr) (s1 s2 t1 t2 : State) (es1 es2 : List Event), s1.resetIn = none → s2.resetIn = none →
    s1.cfg = s2.cfg → s1.osc = s2.osc → exec i s1 = .next t1 → exec i s2 = .next t2 →
    Issued s1 t1 es1 → Issued s2 t2 es2 → answersOf es1 = answersOf es2 →
      es1 = es2 ∧ t1.status = t2.status ∧ (t1.status = 0#3 → t1.value = t2.value) ∧ t1.osc = t2.osc

/-- R24, R84: the transient registers carry no value between operations: two states that differ in them alone end the
same operation in the same way, in states that differ in them alone. -/
def Obligations.TransientRegistersDoNotMatter : Prop :=
  ∀ (i : Instr) (s1 s2 : State), s1.lasting = s2.lasting → SameLasting (exec i s1) (exec i s2)

/-! ## Invariants of the machine -/

/-- Every step keeps the invariant: the register space in canonical form, the oscillators' constants, a status that R201
gives; and no step changes the static tables (R64, R241). That the status after a reset is such a code is the model's
choice (notes/assumptions/5.md), and the canonical form of the register space is the model's (4.md). -/
def Obligations.StepKeepsTheInvariant : Prop :=
  ∀ s t : State, Invariant s → step s = .next t → Invariant t ∧ t.cfg = s.cfg

/-- The machine after reset has the invariant, and the reference configuration is well-formed (R34, R35). The status 0
is the model's choice (notes/assumptions/5.md). -/
def Obligations.ResetHasTheInvariant : Prop := Invariant State.reset ∧ State.reset.cfg.wf = true

/-- R185, R187, R184: every step keeps the invariants that tie the registers to the lifecycle, and every step keeps the
busy bit 0 but from a write on (the field that remembers the write is the model's, notes/assumptions/10.md), in a
configuration whose registers each have one class (R58) and whose gate bits are no bypass bits, where the hardware makes
no move but those of its lifecycle. The lock bit 0 on lifting bypass is the model's deduction from R185 (notes/assumptions/8.md). -/
def Obligations.StepKeepsTheLifecycleInvariant : Prop :=
  ∀ s t : State, oneClass s.cfg = true → gatesApart s.cfg = true →
    (∀ ms ∈ s.hw, ∀ m ∈ ms, isLifecycleMove m = true) →
    (∀ m, s.inputs.head? = some (.hardware m) → isLifecycleMove m = true) →
    step s = .next t →
      ((∀ p, LifeAgrees s p) → ∀ p, LifeAgrees t p) ∧ (BusyWithinEnvelope s → BusyWithinEnvelope t)

/-! ## Reset -/

/-- R241, R243: after reset the block is IDLE and its oscillator table is `OSC_DEFAULT`; a reset of a running machine
does the same and leaves the register space, the lifecycle and the static tables alone. -/
def Obligations.ResetLoadsTheDefaults : Prop :=
  State.reset.phase = .idle ∧ State.reset.osc = State.reset.cfg.oscDefault ∧
    ∀ (s : State) (rest : List Input), s.cfg.wf = true → s.phase = .idle → s.inputs = .reset :: rest →
      ∃ t, step s = .next t ∧ t.phase = .idle ∧ t.osc = s.cfg.oscDefault ∧ t.cfg = s.cfg ∧ KeepsRegisters s t ∧
        t.life = s.life ∧ t.inputs = rest

/-- R242: reset during an operation ends it without a response and leaves the block IDLE with its default table. The
events issued are the first of those that the same operation issues without the reset, as many as reset let pass, and they
stand: the register space, the lifecycle and the hardware's schedule are as those events left them, a write made before the
reset included. Where reset falls between the read and the write of CLK_ENABLE or CLK_DISABLE the write is not made and,
with no move of the hardware scheduled, the gate register keeps its old value. The model's choice
(notes/assumptions/11.md): the number of events that reset lets pass is scheduled in the state, and an operation that
fails its checks or issues no more events than that is ended too, after its last event and before its response. -/
def Obligations.ResetEndsAnOperationSilently : Prop :=
  (∀ (i : Instr) (s t : State) (k : Nat), s.resetIn = some k → exec i s = .next t →
    t.resp = none ∧ t.phase = .idle ∧ t.osc = s.cfg.oscDefault ∧ t.cfg = s.cfg ∧ t.resetIn = none ∧
      ∃ es, Issued s t es ∧ es.length ≤ k ∧ SameSurroundings (afterTransfers s es) t ∧
        ∀ (u : State) (all : List Event), exec i { s with resetIn := none } = .next u → Issued s u all →
          es = all.take k) ∧
  ∀ (s : State) (a : Word) (g : Gate) (i : Instr), s.hw = [] → s.resetIn = some 1 → a.toNat < s.cfg.nNodes →
    gateOf s.cfg a.toNat = some g → i = .clkEnable a ∨ i = .clkDisable a →
      ∃ t, exec i s = .next t ∧ t.resp = none ∧ Issued s t [.rd g.addr (s.readReg g.addr)] ∧ KeepsRegisters s t

/-! ## The clock hardware and the host -/

/-- R43, R58 (c), R184: the busy bit is the clock hardware's. It rises by a move of the hardware, where a write was made
since it last fell, and falls by one; neither move changes any other bit. A write of any word to any register leaves it
as it was, and it may rise from then on; so no operation of the block changes it, undisturbed. The field that remembers
the write is the model's (notes/assumptions/10.md), and that a write to `ADDR_STAT` itself leaves the bit is the model's
reading of U11 (notes/assumptions/9.md). -/
def Obligations.BusyBitIsTheHardwares : Prop :=
  (∀ s : State, s.cfg.wf = true → oneClass s.cfg = true →
    (s.disturbed = true → (s.hwMove .busyRises).busy = true ∧ (s.hwMove .busyRises).disturbed = true) ∧
      (s.disturbed = false → s.hwMove .busyRises = s) ∧
      (s.hwMove .busyFalls).busy = false ∧ (s.hwMove .busyFalls).disturbed = false ∧
      (∀ m, m = .busyRises ∨ m = .busyFalls →
        (s.hwMove m).life = s.life ∧
          ∀ x b, x ≠ s.cfg.statAddr ∨ b ≠ s.cfg.busyBit →
            ((s.hwMove m).readReg x).getLsbD b = (s.readReg x).getLsbD b) ∧
      ∀ a v, (s.writeReg a v).busy = s.busy ∧ (s.writeReg a v).disturbed = true) ∧
  ∀ (i : Instr) (s t : State), s.cfg.wf = true → oneClass s.cfg = true → s.hw = [] → exec i s = .next t →
    t.busy = s.busy

/-- R180, R181: acquiring lock from LOCKING makes the PLL LOCKED and sets its lock-achieved latch and lock bit; losing
lock from LOCKED makes it LOCKING, sets its lock-lost latch, clears its lock bit and keeps the lock-achieved latch. -/
def Obligations.LockMovesLatchTheirFlags : Prop :=
  ∀ (s : State) (p : PllId), s.cfg.wf = true →
    (s.life.get p = .locking →
      let t := s.hwMove (.lockAcquired p)
      t.life.get p = .locked ∧ (t.readReg s.cfg.statusAddr).getLsbD (s.cfg.achBit.get p) = true ∧ t.lck p = true) ∧
      (s.life.get p = .locked →
        let t := s.hwMove (.lockLost p)
        t.life.get p = .locking ∧ (t.readReg s.cfg.statusAddr).getLsbD (s.cfg.lostBit.get p) = true ∧
          t.lck p = false ∧
          (t.readReg s.cfg.statusAddr).getLsbD (s.cfg.achBit.get p) =
            (s.readReg s.cfg.statusAddr).getLsbD (s.cfg.achBit.get p))

/-- R177, R178, R179, R182: what a host write that is not refused does to the lifecycle of each PLL: asserting bypass
makes it BYPASSED, lifting bypass LOCKING, else a ratio change RECONFIGURING, else nothing. The order of the cases for a
write that does several of these, and that a ratio change is a change of value, are the model's deductions
(notes/assumptions/8.md, 12.md); that bypass is asserted by a change from 0 to 1 alone is its choice (16.md). -/
def Obligations.HostWritesMoveTheLifecycle : Prop :=
  ∀ (s t : State) (addr v : Word) (p : PllId), s.hostWrite addr v = .next t →
    let w := s.writeReg addr v
    t.life.get p =
      if (s.safeMode = false ∧ w.safeMode = true) ∨ (s.bypassSelect p = false ∧ w.bypassSelect p = true) then
        .bypassed
      else if s.byp p = true ∧ w.byp p = false then .locking
      else if s.ratio p ≠ w.ratio p then .reconfiguring
      else s.life.get p

/-- R183: a host write that changes the numerator or denominator of a PLL that is LOCKING or LOCKED has no
transition: it is refused (that the write must change a value is the model's deduction, notes/assumptions/12.md). -/
def Obligations.RatioWriteWhileLockedIsRefused : Prop :=
  ∀ (s : State) (addr v : Word) (p : PllId), addr.toNat % 4 = 0 → s.life.get p = .locking ∨ s.life.get p = .locked →
    s.ratio p ≠ (s.writeReg addr v).ratio p → ∃ q, s.hostWrite addr v = .refused (.illegalRatioWrite q)

/-! ## Pseudo-operations -/

/-- R94, R185: undisturbed, PLL_STATE answers the observation of R185, by its priority: bypassed where the safe-mode bit
or the bypass-select bit is 1, whatever the lock bit; else locked where the lock bit is 1; else locking. That nothing else
comes between its two operations is the model's choice (notes/assumptions/15.md). -/
def Obligations.PllStateAnswersTheObservation : Prop :=
  ∀ (s : State) (p : PllId), Undisturbed s →
    ∃ t, KeepsRegisters s t ∧ pllState (pllOperand p) s = .answer (s.obs p) t ∧
      (s.safeMode = true ∨ s.bypassSelect p = true → pllState (pllOperand p) s = .answer .bypassed t) ∧
      (s.safeMode = false → s.bypassSelect p = false → s.lck p = true →
        pllState (pllOperand p) s = .answer .locked t) ∧
      (s.safeMode = false → s.bypassSelect p = false → s.lck p = false →
        pllState (pllOperand p) s = .answer .locking t)

/-- R94, R146: undisturbed, CLEAR_ALL clears the six latches and leaves the lock bits. -/
def Obligations.ClearAllClearsEveryLatch : Prop :=
  ∀ s : State, Undisturbed s → s.cfg.wf = true →
    ∃ t, clearAll s = .answer 0#32 t ∧
      ∀ p : PllId, (t.readReg s.cfg.statusAddr).getLsbD (s.cfg.achBit.get p) = false ∧
        (t.readReg s.cfg.statusAddr).getLsbD (s.cfg.lostBit.get p) = false ∧ t.lck p = s.lck p

/-- R94: undisturbed, WAIT_LOCK answers locked exactly when the lock bit is 1 and a poll is permitted. That nothing else
comes between its polls is the model's choice (notes/assumptions/15.md). -/
def Obligations.WaitLockPollsTheLockBit : Prop :=
  ∀ (k : Nat) (s : State) (p : PllId), Undisturbed s →
    ∃ t, waitLock (pllOperand p) k s = .answer (decide (0 < k) && s.lck p) t ∧ KeepsRegisters s t

/-! ## The host's direct accesses -/

/-- R53, R58, R61 (c): a direct read answers the register's word and changes nothing else. R54, R58: a direct write that
is no illegal ratio change completes; a plain register then holds the word written and every other plain register what it
held; a latch is cleared exactly by a 1 at its position in a write to `ADDR_STATCLR`; a lock bit is left as it was
where bypass is neither asserted (R182) nor lifted, and is 0 where bypass is lifted; the busy bit is left as it was; and nothing of the block
changes. R184: the busy bit may rise from the write on. Which fields carry these things is the model's: `disturbed`, and that
every host write counts for it (notes/assumptions/10.md); `resp`, `events` and `hostWord`, the last changed by a read alone
(6.md); `inputs` and `hw` (3.md); `resetIn` (11.md). That a lifted bypass makes the lock bit 0 is the model's deduction (notes/assumptions/8.md), that a write leaves
the read-only bits its reading of U11 (9.md), that a ratio change is one of value its deduction (12.md), that bypass is
asserted by a change from 0 to 1 alone its choice (16.md). -/
def Obligations.HostAccessesReachTheRegisters : Prop :=
  (∀ (s : State) (addr : Word), addr.toNat % 4 = 0 →
    s.hostRead addr = .next { s with hostWord := some (s.readReg addr) }) ∧
  (∀ (s : State) (addr v : Word), addr.toNat % 4 = 0 →
    (∀ p, s.ratio p = (s.writeReg addr v).ratio p ∨ s.life.get p = .bypassed ∨ s.life.get p = .reconfiguring) →
      ∃ t, s.hostWrite addr v = .next t) ∧
  ∀ (s t : State) (addr v : Word), s.cfg.wf = true → oneClass s.cfg = true → s.hostWrite addr v = .next t →
    let w := s.writeReg addr v
    (isStatusReg s.cfg addr = false → t.readReg addr = v) ∧
      (∀ x, isStatusReg s.cfg x = false → x ≠ addr → t.readReg x = s.readReg x) ∧
      (∀ p : PllId, ∀ b, b = s.cfg.achBit.get p ∨ b = s.cfg.lostBit.get p →
        (t.readReg s.cfg.statusAddr).getLsbD b =
          ((s.readReg s.cfg.statusAddr).getLsbD b && !(decide (addr = s.cfg.statclrAddr) && v.getLsbD b))) ∧
      (∀ p : PllId,
        (s.byp p = true → w.byp p = false → t.lck p = false) ∧
          (s.safeMode = true ∨ w.safeMode = false → s.bypassSelect p = true ∨ w.bypassSelect p = false →
            s.byp p = false ∨ w.byp p = true → t.lck p = s.lck p)) ∧
      t.busy = s.busy ∧ t.disturbed = true ∧ KeepsBlock s t ∧ KeepsTransient s t ∧ t.status = s.status ∧
      t.value = s.value ∧ t.phase = s.phase ∧ t.resp = s.resp ∧ t.events = s.events ∧ t.inputs = s.inputs ∧
      t.hw = s.hw ∧ t.resetIn = s.resetIn ∧ t.hostWord = s.hostWord
end

