-- ==== Sys2Proof/Laws/Memory.lean ====
section
/-!
SUPPORT. The laws of the register space as a list of words: a read after a write, and the canonical form kept.
-/

namespace Sys2Proof.Machine

@[simp] theorem Memory.lookup_nil (a : Nat) : Memory.lookup [] a = none := rfl

/-- A read of the address just stored gives the word stored. -/
@[simp] theorem Memory.lookup_store_same (m : Memory) (a : Nat) (v : Word) : (m.store a v).lookup a = some v := by
  induction m with
  | nil => simp [Memory.store, Memory.lookup]
  | cons c m ih =>
    obtain ⟨b, w⟩ := c
    unfold Memory.store
    split
    · simp [Memory.lookup]
    · split
      · simp [Memory.lookup]
      · simp_all [Memory.lookup]

/-- A store leaves every other address alone. -/
theorem Memory.lookup_store_other (m : Memory) {a c : Nat} (v : Word) (h : c ≠ a) :
    (m.store a v).lookup c = m.lookup c := by
  induction m with
  | nil =>
    show (if c = a then some v else if c < a then none else none) = none
    simp [h]
  | cons d m ih =>
    obtain ⟨b, w⟩ := d
    unfold Memory.store
    split
    · subst_vars; simp [Memory.lookup, h]
    · split
      · simp only [Memory.lookup, h, if_false]
        split
        · rw [if_neg (by omega), if_pos (by omega)]
        · rfl
      · simp only [Memory.lookup, ih]

theorem Memory.risingFrom_weaken {m : Memory} {l a : Nat} (h : m.risingFrom (some l)) (hl : a ≤ l) :
    m.risingFrom (some a) := by
  cases m with
  | nil => rfl
  | cons c m => simp_all [Memory.risingFrom]; omega

theorem Memory.risingFrom_none {m : Memory} {l : Nat} (h : m.risingFrom (some l)) : m.risingFrom none := by
  cases m with
  | nil => rfl
  | cons c m => simp_all [Memory.risingFrom]

theorem Memory.risingFrom_store (m : Memory) (lo : Option Nat) (a : Nat) (v : Word) (h : m.risingFrom lo)
    (hlo : ∀ l, lo = some l → l < a) : (m.store a v).risingFrom lo := by
  induction m generalizing lo with
  | nil => cases lo <;> simp_all [Memory.store, Memory.risingFrom]
  | cons c m ih =>
    obtain ⟨b, w⟩ := c
    unfold Memory.store
    simp only [Memory.risingFrom, Bool.and_eq_true] at h
    split
    · subst_vars
      simpa only [Memory.risingFrom, Bool.and_eq_true] using h
    · split
      · rename_i hab
        simp only [Memory.risingFrom, Bool.and_eq_true, decide_eq_true_eq]
        refine ⟨?_, hab, h.2⟩
        cases lo with
        | none => rfl
        | some l => simpa using hlo l rfl
      · simp only [Memory.risingFrom, Bool.and_eq_true]
        exact ⟨h.1, ih (some b) h.2 (by rintro l ⟨⟩; omega)⟩

theorem Memory.all_store (m : Memory) (f : Nat × Word → Bool) (a : Nat) (v : Word) (h : m.all f = true)
    (hf : f (a, v) = true) : (m.store a v).all f = true := by
  induction m with
  | nil => simp [Memory.store, hf]
  | cons c m ih =>
    obtain ⟨b, w⟩ := c
    unfold Memory.store
    simp only [List.all_cons, Bool.and_eq_true] at h
    split <;> try split
    all_goals simp_all

/-- A store at a register address keeps the canonical form. -/
theorem Memory.wf_store (m : Memory) (a : Nat) (v : Word) (h : m.wf = true) (h4 : a % 4 = 0) (hb : a < 2 ^ 32) :
    (m.store a v).wf = true := by
  simp only [Memory.wf, Bool.and_eq_true] at h ⊢
  exact ⟨Memory.risingFrom_store m none a v h.1 (by simp), Memory.all_store m _ a v h.2 (by simp only [h4, hb, decide_true, Bool.and_self])⟩

/-- The register space at launch is in canonical form. -/
theorem Memory.wf_launch (c : Config) : (State.launch c).mem.wf = true := rfl

theorem Memory.wf_reset : State.reset.mem.wf = true := rfl

end Sys2Proof.Machine
end

