-- ==== Sys2Proof/Laws/State.lean ====
section
/-!
SUPPORT. One lemma per field per update of the state, true by unfolding the update once, tagged for simp: later proofs
rewrite with these instead of unfolding record updates.
-/

namespace Sys2Proof.Machine

variable (s : State)

/-! `setWord` -/

@[simp] theorem State.setWord_cfg (a v : Word) : (s.setWord a v).cfg = s.cfg := rfl
@[simp] theorem State.setWord_opR (a v : Word) : (s.setWord a v).opR = s.opR := rfl
@[simp] theorem State.setWord_aR (a v : Word) : (s.setWord a v).aR = s.aR := rfl
@[simp] theorem State.setWord_bR (a v : Word) : (s.setWord a v).bR = s.bR := rfl
@[simp] theorem State.setWord_status (a v : Word) : (s.setWord a v).status = s.status := rfl
@[simp] theorem State.setWord_value (a v : Word) : (s.setWord a v).value = s.value := rfl
@[simp] theorem State.setWord_phase (a v : Word) : (s.setWord a v).phase = s.phase := rfl
@[simp] theorem State.setWord_acc (a v : Word) : (s.setWord a v).acc = s.acc := rfl
@[simp] theorem State.setWord_sp (a v : Word) : (s.setWord a v).sp = s.sp := rfl
@[simp] theorem State.setWord_stk (a v : Word) : (s.setWord a v).stk = s.stk := rfl
@[simp] theorem State.setWord_iter (a v : Word) : (s.setWord a v).iter = s.iter := rfl
@[simp] theorem State.setWord_rmw (a v : Word) : (s.setWord a v).rmw = s.rmw := rfl
@[simp] theorem State.setWord_osc (a v : Word) : (s.setWord a v).osc = s.osc := rfl
@[simp] theorem State.setWord_resp (a v : Word) : (s.setWord a v).resp = s.resp := rfl
@[simp] theorem State.setWord_mem (a v : Word) : (s.setWord a v).mem = s.mem.store a.toNat v := rfl
@[simp] theorem State.setWord_life (a v : Word) : (s.setWord a v).life = s.life := rfl
@[simp] theorem State.setWord_disturbed (a v : Word) : (s.setWord a v).disturbed = s.disturbed := rfl
@[simp] theorem State.setWord_events (a v : Word) : (s.setWord a v).events = s.events := rfl
@[simp] theorem State.setWord_inputs (a v : Word) : (s.setWord a v).inputs = s.inputs := rfl
@[simp] theorem State.setWord_hw (a v : Word) : (s.setWord a v).hw = s.hw := rfl
@[simp] theorem State.setWord_resetIn (a v : Word) : (s.setWord a v).resetIn = s.resetIn := rfl
@[simp] theorem State.setWord_hostWord (a v : Word) : (s.setWord a v).hostWord = s.hostWord := rfl
@[simp] theorem State.setWord_draws (a v : Word) : (s.setWord a v).draws = s.draws := rfl

/-! `setLife` -/

@[simp] theorem State.setLife_cfg (p : PllId) (l : Life) : (s.setLife p l).cfg = s.cfg := rfl
@[simp] theorem State.setLife_opR (p : PllId) (l : Life) : (s.setLife p l).opR = s.opR := rfl
@[simp] theorem State.setLife_aR (p : PllId) (l : Life) : (s.setLife p l).aR = s.aR := rfl
@[simp] theorem State.setLife_bR (p : PllId) (l : Life) : (s.setLife p l).bR = s.bR := rfl
@[simp] theorem State.setLife_status (p : PllId) (l : Life) : (s.setLife p l).status = s.status := rfl
@[simp] theorem State.setLife_value (p : PllId) (l : Life) : (s.setLife p l).value = s.value := rfl
@[simp] theorem State.setLife_phase (p : PllId) (l : Life) : (s.setLife p l).phase = s.phase := rfl
@[simp] theorem State.setLife_acc (p : PllId) (l : Life) : (s.setLife p l).acc = s.acc := rfl
@[simp] theorem State.setLife_sp (p : PllId) (l : Life) : (s.setLife p l).sp = s.sp := rfl
@[simp] theorem State.setLife_stk (p : PllId) (l : Life) : (s.setLife p l).stk = s.stk := rfl
@[simp] theorem State.setLife_iter (p : PllId) (l : Life) : (s.setLife p l).iter = s.iter := rfl
@[simp] theorem State.setLife_rmw (p : PllId) (l : Life) : (s.setLife p l).rmw = s.rmw := rfl
@[simp] theorem State.setLife_osc (p : PllId) (l : Life) : (s.setLife p l).osc = s.osc := rfl
@[simp] theorem State.setLife_resp (p : PllId) (l : Life) : (s.setLife p l).resp = s.resp := rfl
@[simp] theorem State.setLife_mem (p : PllId) (l : Life) : (s.setLife p l).mem = s.mem := rfl
@[simp] theorem State.setLife_life (p : PllId) (l : Life) : (s.setLife p l).life = s.life.set p l := rfl
@[simp] theorem State.setLife_disturbed (p : PllId) (l : Life) : (s.setLife p l).disturbed = s.disturbed := rfl
@[simp] theorem State.setLife_events (p : PllId) (l : Life) : (s.setLife p l).events = s.events := rfl
@[simp] theorem State.setLife_inputs (p : PllId) (l : Life) : (s.setLife p l).inputs = s.inputs := rfl
@[simp] theorem State.setLife_hw (p : PllId) (l : Life) : (s.setLife p l).hw = s.hw := rfl
@[simp] theorem State.setLife_resetIn (p : PllId) (l : Life) : (s.setLife p l).resetIn = s.resetIn := rfl
@[simp] theorem State.setLife_hostWord (p : PllId) (l : Life) : (s.setLife p l).hostWord = s.hostWord := rfl
@[simp] theorem State.setLife_draws (p : PllId) (l : Life) : (s.setLife p l).draws = s.draws := rfl

/-! `record` -/

@[simp] theorem State.record_cfg (e : Event) : (s.record e).cfg = s.cfg := rfl
@[simp] theorem State.record_opR (e : Event) : (s.record e).opR = s.opR := rfl
@[simp] theorem State.record_aR (e : Event) : (s.record e).aR = s.aR := rfl
@[simp] theorem State.record_bR (e : Event) : (s.record e).bR = s.bR := rfl
@[simp] theorem State.record_status (e : Event) : (s.record e).status = s.status := rfl
@[simp] theorem State.record_value (e : Event) : (s.record e).value = s.value := rfl
@[simp] theorem State.record_phase (e : Event) : (s.record e).phase = s.phase := rfl
@[simp] theorem State.record_acc (e : Event) : (s.record e).acc = s.acc := rfl
@[simp] theorem State.record_sp (e : Event) : (s.record e).sp = s.sp := rfl
@[simp] theorem State.record_stk (e : Event) : (s.record e).stk = s.stk := rfl
@[simp] theorem State.record_iter (e : Event) : (s.record e).iter = s.iter := rfl
@[simp] theorem State.record_rmw (e : Event) : (s.record e).rmw = s.rmw := rfl
@[simp] theorem State.record_osc (e : Event) : (s.record e).osc = s.osc := rfl
@[simp] theorem State.record_resp (e : Event) : (s.record e).resp = s.resp := rfl
@[simp] theorem State.record_mem (e : Event) : (s.record e).mem = s.mem := rfl
@[simp] theorem State.record_life (e : Event) : (s.record e).life = s.life := rfl
@[simp] theorem State.record_disturbed (e : Event) : (s.record e).disturbed = s.disturbed := rfl
@[simp] theorem State.record_events (e : Event) : (s.record e).events = s.events ++ [e] := rfl
@[simp] theorem State.record_inputs (e : Event) : (s.record e).inputs = s.inputs := rfl
@[simp] theorem State.record_hw (e : Event) : (s.record e).hw = s.hw := rfl
@[simp] theorem State.record_resetIn (e : Event) : (s.record e).resetIn = s.resetIn := rfl
@[simp] theorem State.record_hostWord (e : Event) : (s.record e).hostWord = s.hostWord := rfl
@[simp] theorem State.record_draws (e : Event) : (s.record e).draws = s.draws := rfl

/-! `respond` -/

@[simp] theorem State.respond_cfg (c : BitVec 3) (v : Word) : (s.respond c v).cfg = s.cfg := rfl
@[simp] theorem State.respond_opR (c : BitVec 3) (v : Word) : (s.respond c v).opR = s.opR := rfl
@[simp] theorem State.respond_aR (c : BitVec 3) (v : Word) : (s.respond c v).aR = s.aR := rfl
@[simp] theorem State.respond_bR (c : BitVec 3) (v : Word) : (s.respond c v).bR = s.bR := rfl
@[simp] theorem State.respond_status (c : BitVec 3) (v : Word) : (s.respond c v).status = c := rfl
@[simp] theorem State.respond_value (c : BitVec 3) (v : Word) : (s.respond c v).value = v := rfl
@[simp] theorem State.respond_phase (c : BitVec 3) (v : Word) : (s.respond c v).phase = .idle := rfl
@[simp] theorem State.respond_acc (c : BitVec 3) (v : Word) : (s.respond c v).acc = s.acc := rfl
@[simp] theorem State.respond_sp (c : BitVec 3) (v : Word) : (s.respond c v).sp = s.sp := rfl
@[simp] theorem State.respond_stk (c : BitVec 3) (v : Word) : (s.respond c v).stk = s.stk := rfl
@[simp] theorem State.respond_iter (c : BitVec 3) (v : Word) : (s.respond c v).iter = s.iter := rfl
@[simp] theorem State.respond_rmw (c : BitVec 3) (v : Word) : (s.respond c v).rmw = s.rmw := rfl
@[simp] theorem State.respond_osc (c : BitVec 3) (v : Word) : (s.respond c v).osc = s.osc := rfl
@[simp] theorem State.respond_resp (c : BitVec 3) (v : Word) : (s.respond c v).resp = some (packResponse c v) := rfl
@[simp] theorem State.respond_mem (c : BitVec 3) (v : Word) : (s.respond c v).mem = s.mem := rfl
@[simp] theorem State.respond_life (c : BitVec 3) (v : Word) : (s.respond c v).life = s.life := rfl
@[simp] theorem State.respond_disturbed (c : BitVec 3) (v : Word) : (s.respond c v).disturbed = s.disturbed := rfl
@[simp] theorem State.respond_events (c : BitVec 3) (v : Word) : (s.respond c v).events = s.events := rfl
@[simp] theorem State.respond_inputs (c : BitVec 3) (v : Word) : (s.respond c v).inputs = s.inputs := rfl
@[simp] theorem State.respond_hw (c : BitVec 3) (v : Word) : (s.respond c v).hw = s.hw := rfl
@[simp] theorem State.respond_resetIn (c : BitVec 3) (v : Word) : (s.respond c v).resetIn = s.resetIn := rfl
@[simp] theorem State.respond_hostWord (c : BitVec 3) (v : Word) : (s.respond c v).hostWord = s.hostWord := rfl
@[simp] theorem State.respond_draws (c : BitVec 3) (v : Word) : (s.respond c v).draws = s.draws := rfl

/-! `succeed` -/

@[simp] theorem State.succeed_cfg (v : Word) : (s.succeed v).cfg = s.cfg := rfl
@[simp] theorem State.succeed_opR (v : Word) : (s.succeed v).opR = s.opR := rfl
@[simp] theorem State.succeed_aR (v : Word) : (s.succeed v).aR = s.aR := rfl
@[simp] theorem State.succeed_bR (v : Word) : (s.succeed v).bR = s.bR := rfl
@[simp] theorem State.succeed_status (v : Word) : (s.succeed v).status = okCode := rfl
@[simp] theorem State.succeed_value (v : Word) : (s.succeed v).value = v := rfl
@[simp] theorem State.succeed_phase (v : Word) : (s.succeed v).phase = .idle := rfl
@[simp] theorem State.succeed_acc (v : Word) : (s.succeed v).acc = s.acc := rfl
@[simp] theorem State.succeed_sp (v : Word) : (s.succeed v).sp = s.sp := rfl
@[simp] theorem State.succeed_stk (v : Word) : (s.succeed v).stk = s.stk := rfl
@[simp] theorem State.succeed_iter (v : Word) : (s.succeed v).iter = s.iter := rfl
@[simp] theorem State.succeed_rmw (v : Word) : (s.succeed v).rmw = s.rmw := rfl
@[simp] theorem State.succeed_osc (v : Word) : (s.succeed v).osc = s.osc := rfl
@[simp] theorem State.succeed_resp (v : Word) : (s.succeed v).resp = some (packResponse okCode v) := rfl
@[simp] theorem State.succeed_mem (v : Word) : (s.succeed v).mem = s.mem := rfl
@[simp] theorem State.succeed_life (v : Word) : (s.succeed v).life = s.life := rfl
@[simp] theorem State.succeed_disturbed (v : Word) : (s.succeed v).disturbed = s.disturbed := rfl
@[simp] theorem State.succeed_events (v : Word) : (s.succeed v).events = s.events := rfl
@[simp] theorem State.succeed_inputs (v : Word) : (s.succeed v).inputs = s.inputs := rfl
@[simp] theorem State.succeed_hw (v : Word) : (s.succeed v).hw = s.hw := rfl
@[simp] theorem State.succeed_resetIn (v : Word) : (s.succeed v).resetIn = s.resetIn := rfl
@[simp] theorem State.succeed_hostWord (v : Word) : (s.succeed v).hostWord = s.hostWord := rfl
@[simp] theorem State.succeed_draws (v : Word) : (s.succeed v).draws = s.draws := rfl

/-! `raiseFailure` -/

@[simp] theorem State.raiseFailure_cfg (k : Failure) : (s.raiseFailure k).cfg = s.cfg := rfl
@[simp] theorem State.raiseFailure_opR (k : Failure) : (s.raiseFailure k).opR = s.opR := rfl
@[simp] theorem State.raiseFailure_aR (k : Failure) : (s.raiseFailure k).aR = s.aR := rfl
@[simp] theorem State.raiseFailure_bR (k : Failure) : (s.raiseFailure k).bR = s.bR := rfl
@[simp] theorem State.raiseFailure_status (k : Failure) : (s.raiseFailure k).status = k.code := rfl
@[simp] theorem State.raiseFailure_value (k : Failure) : (s.raiseFailure k).value = Config.freeWord s.draws := rfl
@[simp] theorem State.raiseFailure_phase (k : Failure) : (s.raiseFailure k).phase = .idle := rfl
@[simp] theorem State.raiseFailure_acc (k : Failure) : (s.raiseFailure k).acc = s.acc := rfl
@[simp] theorem State.raiseFailure_sp (k : Failure) : (s.raiseFailure k).sp = s.sp := rfl
@[simp] theorem State.raiseFailure_stk (k : Failure) : (s.raiseFailure k).stk = s.stk := rfl
@[simp] theorem State.raiseFailure_iter (k : Failure) : (s.raiseFailure k).iter = s.iter := rfl
@[simp] theorem State.raiseFailure_rmw (k : Failure) : (s.raiseFailure k).rmw = s.rmw := rfl
@[simp] theorem State.raiseFailure_osc (k : Failure) : (s.raiseFailure k).osc = s.osc := rfl
@[simp] theorem State.raiseFailure_resp (k : Failure) : (s.raiseFailure k).resp = some (packResponse k.code (Config.freeWord s.draws)) := rfl
@[simp] theorem State.raiseFailure_mem (k : Failure) : (s.raiseFailure k).mem = s.mem := rfl
@[simp] theorem State.raiseFailure_life (k : Failure) : (s.raiseFailure k).life = s.life := rfl
@[simp] theorem State.raiseFailure_disturbed (k : Failure) : (s.raiseFailure k).disturbed = s.disturbed := rfl
@[simp] theorem State.raiseFailure_events (k : Failure) : (s.raiseFailure k).events = s.events := rfl
@[simp] theorem State.raiseFailure_inputs (k : Failure) : (s.raiseFailure k).inputs = s.inputs := rfl
@[simp] theorem State.raiseFailure_hw (k : Failure) : (s.raiseFailure k).hw = s.hw := rfl
@[simp] theorem State.raiseFailure_resetIn (k : Failure) : (s.raiseFailure k).resetIn = s.resetIn := rfl
@[simp] theorem State.raiseFailure_hostWord (k : Failure) : (s.raiseFailure k).hostWord = s.hostWord := rfl
@[simp] theorem State.raiseFailure_draws (k : Failure) : (s.raiseFailure k).draws = s.draws + 1 := rfl

/-! `accept` -/

@[simp] theorem State.accept_cfg (cw : CommandWord) (r : Option Nat) : (s.accept cw r).cfg = s.cfg := rfl
@[simp] theorem State.accept_opR (cw : CommandWord) (r : Option Nat) : (s.accept cw r).opR = opField cw := rfl
@[simp] theorem State.accept_aR (cw : CommandWord) (r : Option Nat) : (s.accept cw r).aR = aField cw := rfl
@[simp] theorem State.accept_bR (cw : CommandWord) (r : Option Nat) : (s.accept cw r).bR = bField cw := rfl
@[simp] theorem State.accept_status (cw : CommandWord) (r : Option Nat) : (s.accept cw r).status = s.status := rfl
@[simp] theorem State.accept_value (cw : CommandWord) (r : Option Nat) : (s.accept cw r).value = s.value := rfl
@[simp] theorem State.accept_phase (cw : CommandWord) (r : Option Nat) : (s.accept cw r).phase = .run := rfl
@[simp] theorem State.accept_acc (cw : CommandWord) (r : Option Nat) : (s.accept cw r).acc = s.acc := rfl
@[simp] theorem State.accept_sp (cw : CommandWord) (r : Option Nat) : (s.accept cw r).sp = s.sp := rfl
@[simp] theorem State.accept_stk (cw : CommandWord) (r : Option Nat) : (s.accept cw r).stk = s.stk := rfl
@[simp] theorem State.accept_iter (cw : CommandWord) (r : Option Nat) : (s.accept cw r).iter = s.iter := rfl
@[simp] theorem State.accept_rmw (cw : CommandWord) (r : Option Nat) : (s.accept cw r).rmw = s.rmw := rfl
@[simp] theorem State.accept_osc (cw : CommandWord) (r : Option Nat) : (s.accept cw r).osc = s.osc := rfl
@[simp] theorem State.accept_resp (cw : CommandWord) (r : Option Nat) : (s.accept cw r).resp = none := rfl
@[simp] theorem State.accept_mem (cw : CommandWord) (r : Option Nat) : (s.accept cw r).mem = s.mem := rfl
@[simp] theorem State.accept_life (cw : CommandWord) (r : Option Nat) : (s.accept cw r).life = s.life := rfl
@[simp] theorem State.accept_disturbed (cw : CommandWord) (r : Option Nat) : (s.accept cw r).disturbed = s.disturbed := rfl
@[simp] theorem State.accept_events (cw : CommandWord) (r : Option Nat) : (s.accept cw r).events = [] := rfl
@[simp] theorem State.accept_inputs (cw : CommandWord) (r : Option Nat) : (s.accept cw r).inputs = s.inputs := rfl
@[simp] theorem State.accept_hw (cw : CommandWord) (r : Option Nat) : (s.accept cw r).hw = s.hw := rfl
@[simp] theorem State.accept_resetIn (cw : CommandWord) (r : Option Nat) : (s.accept cw r).resetIn = r := rfl
@[simp] theorem State.accept_hostWord (cw : CommandWord) (r : Option Nat) : (s.accept cw r).hostWord = s.hostWord := rfl
@[simp] theorem State.accept_draws (cw : CommandWord) (r : Option Nat) : (s.accept cw r).draws = s.draws := rfl

/-! `blockReset` -/

@[simp] theorem State.blockReset_cfg : (s.blockReset).cfg = s.cfg := rfl
@[simp] theorem State.blockReset_opR : (s.blockReset).opR = 0#4 := rfl
@[simp] theorem State.blockReset_aR : (s.blockReset).aR = 0#32 := rfl
@[simp] theorem State.blockReset_bR : (s.blockReset).bR = 0#32 := rfl
@[simp] theorem State.blockReset_status : (s.blockReset).status = 0#3 := rfl
@[simp] theorem State.blockReset_value : (s.blockReset).value = 0#32 := rfl
@[simp] theorem State.blockReset_phase : (s.blockReset).phase = .idle := rfl
@[simp] theorem State.blockReset_acc : (s.blockReset).acc = 0#64 := rfl
@[simp] theorem State.blockReset_sp : (s.blockReset).sp = 0 := rfl
@[simp] theorem State.blockReset_stk : (s.blockReset).stk = List.replicate (s.cfg.maxDepth + 1) 0 := rfl
@[simp] theorem State.blockReset_iter : (s.blockReset).iter = 0#32 := rfl
@[simp] theorem State.blockReset_rmw : (s.blockReset).rmw = 0#32 := rfl
@[simp] theorem State.blockReset_osc : (s.blockReset).osc = s.cfg.oscDefault := rfl
@[simp] theorem State.blockReset_resp : (s.blockReset).resp = none := rfl
@[simp] theorem State.blockReset_mem : (s.blockReset).mem = s.mem := rfl
@[simp] theorem State.blockReset_life : (s.blockReset).life = s.life := rfl
@[simp] theorem State.blockReset_disturbed : (s.blockReset).disturbed = s.disturbed := rfl
@[simp] theorem State.blockReset_events : (s.blockReset).events = s.events := rfl
@[simp] theorem State.blockReset_inputs : (s.blockReset).inputs = s.inputs := rfl
@[simp] theorem State.blockReset_hw : (s.blockReset).hw = s.hw := rfl
@[simp] theorem State.blockReset_resetIn : (s.blockReset).resetIn = none := rfl
@[simp] theorem State.blockReset_hostWord : (s.blockReset).hostWord = s.hostWord := rfl
@[simp] theorem State.blockReset_draws : (s.blockReset).draws = s.draws := rfl

/-! `visit` -/

@[simp] theorem State.visit_cfg (n : Nat) : (s.visit n).cfg = s.cfg := rfl
@[simp] theorem State.visit_opR (n : Nat) : (s.visit n).opR = s.opR := rfl
@[simp] theorem State.visit_aR (n : Nat) : (s.visit n).aR = s.aR := rfl
@[simp] theorem State.visit_bR (n : Nat) : (s.visit n).bR = s.bR := rfl
@[simp] theorem State.visit_status (n : Nat) : (s.visit n).status = s.status := rfl
@[simp] theorem State.visit_value (n : Nat) : (s.visit n).value = s.value := rfl
@[simp] theorem State.visit_phase (n : Nat) : (s.visit n).phase = s.phase := rfl
@[simp] theorem State.visit_acc (n : Nat) : (s.visit n).acc = s.acc := rfl
@[simp] theorem State.visit_sp (n : Nat) : (s.visit n).sp = s.sp := rfl
@[simp] theorem State.visit_stk (n : Nat) : (s.visit n).stk = s.stk.set s.sp n := rfl
@[simp] theorem State.visit_iter (n : Nat) : (s.visit n).iter = s.iter := rfl
@[simp] theorem State.visit_rmw (n : Nat) : (s.visit n).rmw = s.rmw := rfl
@[simp] theorem State.visit_osc (n : Nat) : (s.visit n).osc = s.osc := rfl
@[simp] theorem State.visit_resp (n : Nat) : (s.visit n).resp = s.resp := rfl
@[simp] theorem State.visit_mem (n : Nat) : (s.visit n).mem = s.mem := rfl
@[simp] theorem State.visit_life (n : Nat) : (s.visit n).life = s.life := rfl
@[simp] theorem State.visit_disturbed (n : Nat) : (s.visit n).disturbed = s.disturbed := rfl
@[simp] theorem State.visit_events (n : Nat) : (s.visit n).events = s.events := rfl
@[simp] theorem State.visit_inputs (n : Nat) : (s.visit n).inputs = s.inputs := rfl
@[simp] theorem State.visit_hw (n : Nat) : (s.visit n).hw = s.hw := rfl
@[simp] theorem State.visit_resetIn (n : Nat) : (s.visit n).resetIn = s.resetIn := rfl
@[simp] theorem State.visit_hostWord (n : Nat) : (s.visit n).hostWord = s.hostWord := rfl
@[simp] theorem State.visit_draws (n : Nat) : (s.visit n).draws = s.draws := rfl

/-! `descend` -/

@[simp] theorem State.descend_cfg : (s.descend).cfg = s.cfg := rfl
@[simp] theorem State.descend_opR : (s.descend).opR = s.opR := rfl
@[simp] theorem State.descend_aR : (s.descend).aR = s.aR := rfl
@[simp] theorem State.descend_bR : (s.descend).bR = s.bR := rfl
@[simp] theorem State.descend_status : (s.descend).status = s.status := rfl
@[simp] theorem State.descend_value : (s.descend).value = s.value := rfl
@[simp] theorem State.descend_phase : (s.descend).phase = s.phase := rfl
@[simp] theorem State.descend_acc : (s.descend).acc = s.acc := rfl
@[simp] theorem State.descend_sp : (s.descend).sp = s.sp + 1 := rfl
@[simp] theorem State.descend_stk : (s.descend).stk = s.stk := rfl
@[simp] theorem State.descend_iter : (s.descend).iter = s.iter := rfl
@[simp] theorem State.descend_rmw : (s.descend).rmw = s.rmw := rfl
@[simp] theorem State.descend_osc : (s.descend).osc = s.osc := rfl
@[simp] theorem State.descend_resp : (s.descend).resp = s.resp := rfl
@[simp] theorem State.descend_mem : (s.descend).mem = s.mem := rfl
@[simp] theorem State.descend_life : (s.descend).life = s.life := rfl
@[simp] theorem State.descend_disturbed : (s.descend).disturbed = s.disturbed := rfl
@[simp] theorem State.descend_events : (s.descend).events = s.events := rfl
@[simp] theorem State.descend_inputs : (s.descend).inputs = s.inputs := rfl
@[simp] theorem State.descend_hw : (s.descend).hw = s.hw := rfl
@[simp] theorem State.descend_resetIn : (s.descend).resetIn = s.resetIn := rfl
@[simp] theorem State.descend_hostWord : (s.descend).hostWord = s.hostWord := rfl
@[simp] theorem State.descend_draws : (s.descend).draws = s.draws := rfl

/-! `ascend` -/

@[simp] theorem State.ascend_cfg : (s.ascend).cfg = s.cfg := rfl
@[simp] theorem State.ascend_opR : (s.ascend).opR = s.opR := rfl
@[simp] theorem State.ascend_aR : (s.ascend).aR = s.aR := rfl
@[simp] theorem State.ascend_bR : (s.ascend).bR = s.bR := rfl
@[simp] theorem State.ascend_status : (s.ascend).status = s.status := rfl
@[simp] theorem State.ascend_value : (s.ascend).value = s.value := rfl
@[simp] theorem State.ascend_phase : (s.ascend).phase = s.phase := rfl
@[simp] theorem State.ascend_acc : (s.ascend).acc = s.acc := rfl
@[simp] theorem State.ascend_sp : (s.ascend).sp = s.sp - 1 := rfl
@[simp] theorem State.ascend_stk : (s.ascend).stk = s.stk := rfl
@[simp] theorem State.ascend_iter : (s.ascend).iter = s.iter := rfl
@[simp] theorem State.ascend_rmw : (s.ascend).rmw = s.rmw := rfl
@[simp] theorem State.ascend_osc : (s.ascend).osc = s.osc := rfl
@[simp] theorem State.ascend_resp : (s.ascend).resp = s.resp := rfl
@[simp] theorem State.ascend_mem : (s.ascend).mem = s.mem := rfl
@[simp] theorem State.ascend_life : (s.ascend).life = s.life := rfl
@[simp] theorem State.ascend_disturbed : (s.ascend).disturbed = s.disturbed := rfl
@[simp] theorem State.ascend_events : (s.ascend).events = s.events := rfl
@[simp] theorem State.ascend_inputs : (s.ascend).inputs = s.inputs := rfl
@[simp] theorem State.ascend_hw : (s.ascend).hw = s.hw := rfl
@[simp] theorem State.ascend_resetIn : (s.ascend).resetIn = s.resetIn := rfl
@[simp] theorem State.ascend_hostWord : (s.ascend).hostWord = s.hostWord := rfl
@[simp] theorem State.ascend_draws : (s.ascend).draws = s.draws := rfl

/-! `setAcc` -/

@[simp] theorem State.setAcc_cfg (v : Wide) : (s.setAcc v).cfg = s.cfg := rfl
@[simp] theorem State.setAcc_opR (v : Wide) : (s.setAcc v).opR = s.opR := rfl
@[simp] theorem State.setAcc_aR (v : Wide) : (s.setAcc v).aR = s.aR := rfl
@[simp] theorem State.setAcc_bR (v : Wide) : (s.setAcc v).bR = s.bR := rfl
@[simp] theorem State.setAcc_status (v : Wide) : (s.setAcc v).status = s.status := rfl
@[simp] theorem State.setAcc_value (v : Wide) : (s.setAcc v).value = s.value := rfl
@[simp] theorem State.setAcc_phase (v : Wide) : (s.setAcc v).phase = s.phase := rfl
@[simp] theorem State.setAcc_acc (v : Wide) : (s.setAcc v).acc = v := rfl
@[simp] theorem State.setAcc_sp (v : Wide) : (s.setAcc v).sp = s.sp := rfl
@[simp] theorem State.setAcc_stk (v : Wide) : (s.setAcc v).stk = s.stk := rfl
@[simp] theorem State.setAcc_iter (v : Wide) : (s.setAcc v).iter = s.iter := rfl
@[simp] theorem State.setAcc_rmw (v : Wide) : (s.setAcc v).rmw = s.rmw := rfl
@[simp] theorem State.setAcc_osc (v : Wide) : (s.setAcc v).osc = s.osc := rfl
@[simp] theorem State.setAcc_resp (v : Wide) : (s.setAcc v).resp = s.resp := rfl
@[simp] theorem State.setAcc_mem (v : Wide) : (s.setAcc v).mem = s.mem := rfl
@[simp] theorem State.setAcc_life (v : Wide) : (s.setAcc v).life = s.life := rfl
@[simp] theorem State.setAcc_disturbed (v : Wide) : (s.setAcc v).disturbed = s.disturbed := rfl
@[simp] theorem State.setAcc_events (v : Wide) : (s.setAcc v).events = s.events := rfl
@[simp] theorem State.setAcc_inputs (v : Wide) : (s.setAcc v).inputs = s.inputs := rfl
@[simp] theorem State.setAcc_hw (v : Wide) : (s.setAcc v).hw = s.hw := rfl
@[simp] theorem State.setAcc_resetIn (v : Wide) : (s.setAcc v).resetIn = s.resetIn := rfl
@[simp] theorem State.setAcc_hostWord (v : Wide) : (s.setAcc v).hostWord = s.hostWord := rfl
@[simp] theorem State.setAcc_draws (v : Wide) : (s.setAcc v).draws = s.draws := rfl

/-! `setOscFreq` -/

@[simp] theorem State.setOscFreq_cfg (i : Nat) (f : Word) : (s.setOscFreq i f).cfg = s.cfg := rfl
@[simp] theorem State.setOscFreq_opR (i : Nat) (f : Word) : (s.setOscFreq i f).opR = s.opR := rfl
@[simp] theorem State.setOscFreq_aR (i : Nat) (f : Word) : (s.setOscFreq i f).aR = s.aR := rfl
@[simp] theorem State.setOscFreq_bR (i : Nat) (f : Word) : (s.setOscFreq i f).bR = s.bR := rfl
@[simp] theorem State.setOscFreq_status (i : Nat) (f : Word) : (s.setOscFreq i f).status = s.status := rfl
@[simp] theorem State.setOscFreq_value (i : Nat) (f : Word) : (s.setOscFreq i f).value = s.value := rfl
@[simp] theorem State.setOscFreq_phase (i : Nat) (f : Word) : (s.setOscFreq i f).phase = s.phase := rfl
@[simp] theorem State.setOscFreq_acc (i : Nat) (f : Word) : (s.setOscFreq i f).acc = s.acc := rfl
@[simp] theorem State.setOscFreq_sp (i : Nat) (f : Word) : (s.setOscFreq i f).sp = s.sp := rfl
@[simp] theorem State.setOscFreq_stk (i : Nat) (f : Word) : (s.setOscFreq i f).stk = s.stk := rfl
@[simp] theorem State.setOscFreq_iter (i : Nat) (f : Word) : (s.setOscFreq i f).iter = s.iter := rfl
@[simp] theorem State.setOscFreq_rmw (i : Nat) (f : Word) : (s.setOscFreq i f).rmw = s.rmw := rfl
@[simp] theorem State.setOscFreq_osc (i : Nat) (f : Word) : (s.setOscFreq i f).osc = s.osc.modify i (fun o => { o with freq := f }) := rfl
@[simp] theorem State.setOscFreq_resp (i : Nat) (f : Word) : (s.setOscFreq i f).resp = s.resp := rfl
@[simp] theorem State.setOscFreq_mem (i : Nat) (f : Word) : (s.setOscFreq i f).mem = s.mem := rfl
@[simp] theorem State.setOscFreq_life (i : Nat) (f : Word) : (s.setOscFreq i f).life = s.life := rfl
@[simp] theorem State.setOscFreq_disturbed (i : Nat) (f : Word) : (s.setOscFreq i f).disturbed = s.disturbed := rfl
@[simp] theorem State.setOscFreq_events (i : Nat) (f : Word) : (s.setOscFreq i f).events = s.events := rfl
@[simp] theorem State.setOscFreq_inputs (i : Nat) (f : Word) : (s.setOscFreq i f).inputs = s.inputs := rfl
@[simp] theorem State.setOscFreq_hw (i : Nat) (f : Word) : (s.setOscFreq i f).hw = s.hw := rfl
@[simp] theorem State.setOscFreq_resetIn (i : Nat) (f : Word) : (s.setOscFreq i f).resetIn = s.resetIn := rfl
@[simp] theorem State.setOscFreq_hostWord (i : Nat) (f : Word) : (s.setOscFreq i f).hostWord = s.hostWord := rfl
@[simp] theorem State.setOscFreq_draws (i : Nat) (f : Word) : (s.setOscFreq i f).draws = s.draws := rfl

/-! `countRead` -/

@[simp] theorem State.countRead_cfg : (s.countRead).cfg = s.cfg := rfl
@[simp] theorem State.countRead_opR : (s.countRead).opR = s.opR := rfl
@[simp] theorem State.countRead_aR : (s.countRead).aR = s.aR := rfl
@[simp] theorem State.countRead_bR : (s.countRead).bR = s.bR := rfl
@[simp] theorem State.countRead_status : (s.countRead).status = s.status := rfl
@[simp] theorem State.countRead_value : (s.countRead).value = s.value := rfl
@[simp] theorem State.countRead_phase : (s.countRead).phase = s.phase := rfl
@[simp] theorem State.countRead_acc : (s.countRead).acc = s.acc := rfl
@[simp] theorem State.countRead_sp : (s.countRead).sp = s.sp := rfl
@[simp] theorem State.countRead_stk : (s.countRead).stk = s.stk := rfl
@[simp] theorem State.countRead_iter : (s.countRead).iter = s.iter + 1#32 := rfl
@[simp] theorem State.countRead_rmw : (s.countRead).rmw = s.rmw := rfl
@[simp] theorem State.countRead_osc : (s.countRead).osc = s.osc := rfl
@[simp] theorem State.countRead_resp : (s.countRead).resp = s.resp := rfl
@[simp] theorem State.countRead_mem : (s.countRead).mem = s.mem := rfl
@[simp] theorem State.countRead_life : (s.countRead).life = s.life := rfl
@[simp] theorem State.countRead_disturbed : (s.countRead).disturbed = s.disturbed := rfl
@[simp] theorem State.countRead_events : (s.countRead).events = s.events := rfl
@[simp] theorem State.countRead_inputs : (s.countRead).inputs = s.inputs := rfl
@[simp] theorem State.countRead_hw : (s.countRead).hw = s.hw := rfl
@[simp] theorem State.countRead_resetIn : (s.countRead).resetIn = s.resetIn := rfl
@[simp] theorem State.countRead_hostWord : (s.countRead).hostWord = s.hostWord := rfl
@[simp] theorem State.countRead_draws : (s.countRead).draws = s.draws := rfl

/-! `setStatusBit` -/

@[simp] theorem State.setStatusBit_cfg (b : Nat) (v : Bool) : (s.setStatusBit b v).cfg = s.cfg := rfl
@[simp] theorem State.setStatusBit_opR (b : Nat) (v : Bool) : (s.setStatusBit b v).opR = s.opR := rfl
@[simp] theorem State.setStatusBit_aR (b : Nat) (v : Bool) : (s.setStatusBit b v).aR = s.aR := rfl
@[simp] theorem State.setStatusBit_bR (b : Nat) (v : Bool) : (s.setStatusBit b v).bR = s.bR := rfl
@[simp] theorem State.setStatusBit_status (b : Nat) (v : Bool) : (s.setStatusBit b v).status = s.status := rfl
@[simp] theorem State.setStatusBit_value (b : Nat) (v : Bool) : (s.setStatusBit b v).value = s.value := rfl
@[simp] theorem State.setStatusBit_phase (b : Nat) (v : Bool) : (s.setStatusBit b v).phase = s.phase := rfl
@[simp] theorem State.setStatusBit_acc (b : Nat) (v : Bool) : (s.setStatusBit b v).acc = s.acc := rfl
@[simp] theorem State.setStatusBit_sp (b : Nat) (v : Bool) : (s.setStatusBit b v).sp = s.sp := rfl
@[simp] theorem State.setStatusBit_stk (b : Nat) (v : Bool) : (s.setStatusBit b v).stk = s.stk := rfl
@[simp] theorem State.setStatusBit_iter (b : Nat) (v : Bool) : (s.setStatusBit b v).iter = s.iter := rfl
@[simp] theorem State.setStatusBit_rmw (b : Nat) (v : Bool) : (s.setStatusBit b v).rmw = s.rmw := rfl
@[simp] theorem State.setStatusBit_osc (b : Nat) (v : Bool) : (s.setStatusBit b v).osc = s.osc := rfl
@[simp] theorem State.setStatusBit_resp (b : Nat) (v : Bool) : (s.setStatusBit b v).resp = s.resp := rfl
@[simp] theorem State.setStatusBit_life (b : Nat) (v : Bool) : (s.setStatusBit b v).life = s.life := rfl
@[simp] theorem State.setStatusBit_disturbed (b : Nat) (v : Bool) : (s.setStatusBit b v).disturbed = s.disturbed := rfl
@[simp] theorem State.setStatusBit_events (b : Nat) (v : Bool) : (s.setStatusBit b v).events = s.events := rfl
@[simp] theorem State.setStatusBit_inputs (b : Nat) (v : Bool) : (s.setStatusBit b v).inputs = s.inputs := rfl
@[simp] theorem State.setStatusBit_hw (b : Nat) (v : Bool) : (s.setStatusBit b v).hw = s.hw := rfl
@[simp] theorem State.setStatusBit_resetIn (b : Nat) (v : Bool) : (s.setStatusBit b v).resetIn = s.resetIn := rfl
@[simp] theorem State.setStatusBit_hostWord (b : Nat) (v : Bool) : (s.setStatusBit b v).hostWord = s.hostWord := rfl
@[simp] theorem State.setStatusBit_draws (b : Nat) (v : Bool) : (s.setStatusBit b v).draws = s.draws := rfl

/-! `setBusy` -/

@[simp] theorem State.setBusy_cfg (v : Bool) : (s.setBusy v).cfg = s.cfg := rfl
@[simp] theorem State.setBusy_opR (v : Bool) : (s.setBusy v).opR = s.opR := rfl
@[simp] theorem State.setBusy_aR (v : Bool) : (s.setBusy v).aR = s.aR := rfl
@[simp] theorem State.setBusy_bR (v : Bool) : (s.setBusy v).bR = s.bR := rfl
@[simp] theorem State.setBusy_status (v : Bool) : (s.setBusy v).status = s.status := rfl
@[simp] theorem State.setBusy_value (v : Bool) : (s.setBusy v).value = s.value := rfl
@[simp] theorem State.setBusy_phase (v : Bool) : (s.setBusy v).phase = s.phase := rfl
@[simp] theorem State.setBusy_acc (v : Bool) : (s.setBusy v).acc = s.acc := rfl
@[simp] theorem State.setBusy_sp (v : Bool) : (s.setBusy v).sp = s.sp := rfl
@[simp] theorem State.setBusy_stk (v : Bool) : (s.setBusy v).stk = s.stk := rfl
@[simp] theorem State.setBusy_iter (v : Bool) : (s.setBusy v).iter = s.iter := rfl
@[simp] theorem State.setBusy_rmw (v : Bool) : (s.setBusy v).rmw = s.rmw := rfl
@[simp] theorem State.setBusy_osc (v : Bool) : (s.setBusy v).osc = s.osc := rfl
@[simp] theorem State.setBusy_resp (v : Bool) : (s.setBusy v).resp = s.resp := rfl
@[simp] theorem State.setBusy_life (v : Bool) : (s.setBusy v).life = s.life := rfl
@[simp] theorem State.setBusy_disturbed (v : Bool) : (s.setBusy v).disturbed = s.disturbed := rfl
@[simp] theorem State.setBusy_events (v : Bool) : (s.setBusy v).events = s.events := rfl
@[simp] theorem State.setBusy_inputs (v : Bool) : (s.setBusy v).inputs = s.inputs := rfl
@[simp] theorem State.setBusy_hw (v : Bool) : (s.setBusy v).hw = s.hw := rfl
@[simp] theorem State.setBusy_resetIn (v : Bool) : (s.setBusy v).resetIn = s.resetIn := rfl
@[simp] theorem State.setBusy_hostWord (v : Bool) : (s.setBusy v).hostWord = s.hostWord := rfl
@[simp] theorem State.setBusy_draws (v : Bool) : (s.setBusy v).draws = s.draws := rfl

/-! `clearLatches` -/

@[simp] theorem State.clearLatches_cfg (v : Word) : (s.clearLatches v).cfg = s.cfg := rfl
@[simp] theorem State.clearLatches_opR (v : Word) : (s.clearLatches v).opR = s.opR := rfl
@[simp] theorem State.clearLatches_aR (v : Word) : (s.clearLatches v).aR = s.aR := rfl
@[simp] theorem State.clearLatches_bR (v : Word) : (s.clearLatches v).bR = s.bR := rfl
@[simp] theorem State.clearLatches_status (v : Word) : (s.clearLatches v).status = s.status := rfl
@[simp] theorem State.clearLatches_value (v : Word) : (s.clearLatches v).value = s.value := rfl
@[simp] theorem State.clearLatches_phase (v : Word) : (s.clearLatches v).phase = s.phase := rfl
@[simp] theorem State.clearLatches_acc (v : Word) : (s.clearLatches v).acc = s.acc := rfl
@[simp] theorem State.clearLatches_sp (v : Word) : (s.clearLatches v).sp = s.sp := rfl
@[simp] theorem State.clearLatches_stk (v : Word) : (s.clearLatches v).stk = s.stk := rfl
@[simp] theorem State.clearLatches_iter (v : Word) : (s.clearLatches v).iter = s.iter := rfl
@[simp] theorem State.clearLatches_rmw (v : Word) : (s.clearLatches v).rmw = s.rmw := rfl
@[simp] theorem State.clearLatches_osc (v : Word) : (s.clearLatches v).osc = s.osc := rfl
@[simp] theorem State.clearLatches_resp (v : Word) : (s.clearLatches v).resp = s.resp := rfl
@[simp] theorem State.clearLatches_life (v : Word) : (s.clearLatches v).life = s.life := rfl
@[simp] theorem State.clearLatches_disturbed (v : Word) : (s.clearLatches v).disturbed = s.disturbed := rfl
@[simp] theorem State.clearLatches_events (v : Word) : (s.clearLatches v).events = s.events := rfl
@[simp] theorem State.clearLatches_inputs (v : Word) : (s.clearLatches v).inputs = s.inputs := rfl
@[simp] theorem State.clearLatches_hw (v : Word) : (s.clearLatches v).hw = s.hw := rfl
@[simp] theorem State.clearLatches_resetIn (v : Word) : (s.clearLatches v).resetIn = s.resetIn := rfl
@[simp] theorem State.clearLatches_hostWord (v : Word) : (s.clearLatches v).hostWord = s.hostWord := rfl
@[simp] theorem State.clearLatches_draws (v : Word) : (s.clearLatches v).draws = s.draws := rfl

/-! `storeReg` -/

@[simp] theorem State.storeReg_cfg (a v : Word) : (s.storeReg a v).cfg = s.cfg := by unfold State.storeReg; split <;> rfl
@[simp] theorem State.storeReg_opR (a v : Word) : (s.storeReg a v).opR = s.opR := by unfold State.storeReg; split <;> rfl
@[simp] theorem State.storeReg_aR (a v : Word) : (s.storeReg a v).aR = s.aR := by unfold State.storeReg; split <;> rfl
@[simp] theorem State.storeReg_bR (a v : Word) : (s.storeReg a v).bR = s.bR := by unfold State.storeReg; split <;> rfl
@[simp] theorem State.storeReg_status (a v : Word) : (s.storeReg a v).status = s.status := by unfold State.storeReg; split <;> rfl
@[simp] theorem State.storeReg_value (a v : Word) : (s.storeReg a v).value = s.value := by unfold State.storeReg; split <;> rfl
@[simp] theorem State.storeReg_phase (a v : Word) : (s.storeReg a v).phase = s.phase := by unfold State.storeReg; split <;> rfl
@[simp] theorem State.storeReg_acc (a v : Word) : (s.storeReg a v).acc = s.acc := by unfold State.storeReg; split <;> rfl
@[simp] theorem State.storeReg_sp (a v : Word) : (s.storeReg a v).sp = s.sp := by unfold State.storeReg; split <;> rfl
@[simp] theorem State.storeReg_stk (a v : Word) : (s.storeReg a v).stk = s.stk := by unfold State.storeReg; split <;> rfl
@[simp] theorem State.storeReg_iter (a v : Word) : (s.storeReg a v).iter = s.iter := by unfold State.storeReg; split <;> rfl
@[simp] theorem State.storeReg_rmw (a v : Word) : (s.storeReg a v).rmw = s.rmw := by unfold State.storeReg; split <;> rfl
@[simp] theorem State.storeReg_osc (a v : Word) : (s.storeReg a v).osc = s.osc := by unfold State.storeReg; split <;> rfl
@[simp] theorem State.storeReg_resp (a v : Word) : (s.storeReg a v).resp = s.resp := by unfold State.storeReg; split <;> rfl
@[simp] theorem State.storeReg_life (a v : Word) : (s.storeReg a v).life = s.life := by unfold State.storeReg; split <;> rfl
@[simp] theorem State.storeReg_disturbed (a v : Word) : (s.storeReg a v).disturbed = s.disturbed := by unfold State.storeReg; split <;> rfl
@[simp] theorem State.storeReg_events (a v : Word) : (s.storeReg a v).events = s.events := by unfold State.storeReg; split <;> rfl
@[simp] theorem State.storeReg_inputs (a v : Word) : (s.storeReg a v).inputs = s.inputs := by unfold State.storeReg; split <;> rfl
@[simp] theorem State.storeReg_hw (a v : Word) : (s.storeReg a v).hw = s.hw := by unfold State.storeReg; split <;> rfl
@[simp] theorem State.storeReg_resetIn (a v : Word) : (s.storeReg a v).resetIn = s.resetIn := by unfold State.storeReg; split <;> rfl
@[simp] theorem State.storeReg_hostWord (a v : Word) : (s.storeReg a v).hostWord = s.hostWord := by unfold State.storeReg; split <;> rfl
@[simp] theorem State.storeReg_draws (a v : Word) : (s.storeReg a v).draws = s.draws := by unfold State.storeReg; split <;> rfl

/-! `writeReg` -/

@[simp] theorem State.writeReg_cfg (a v : Word) : (s.writeReg a v).cfg = s.cfg := by unfold State.writeReg; dsimp only; split <;> simp
@[simp] theorem State.writeReg_opR (a v : Word) : (s.writeReg a v).opR = s.opR := by unfold State.writeReg; dsimp only; split <;> simp
@[simp] theorem State.writeReg_aR (a v : Word) : (s.writeReg a v).aR = s.aR := by unfold State.writeReg; dsimp only; split <;> simp
@[simp] theorem State.writeReg_bR (a v : Word) : (s.writeReg a v).bR = s.bR := by unfold State.writeReg; dsimp only; split <;> simp
@[simp] theorem State.writeReg_status (a v : Word) : (s.writeReg a v).status = s.status := by unfold State.writeReg; dsimp only; split <;> simp
@[simp] theorem State.writeReg_value (a v : Word) : (s.writeReg a v).value = s.value := by unfold State.writeReg; dsimp only; split <;> simp
@[simp] theorem State.writeReg_phase (a v : Word) : (s.writeReg a v).phase = s.phase := by unfold State.writeReg; dsimp only; split <;> simp
@[simp] theorem State.writeReg_acc (a v : Word) : (s.writeReg a v).acc = s.acc := by unfold State.writeReg; dsimp only; split <;> simp
@[simp] theorem State.writeReg_sp (a v : Word) : (s.writeReg a v).sp = s.sp := by unfold State.writeReg; dsimp only; split <;> simp
@[simp] theorem State.writeReg_stk (a v : Word) : (s.writeReg a v).stk = s.stk := by unfold State.writeReg; dsimp only; split <;> simp
@[simp] theorem State.writeReg_iter (a v : Word) : (s.writeReg a v).iter = s.iter := by unfold State.writeReg; dsimp only; split <;> simp
@[simp] theorem State.writeReg_rmw (a v : Word) : (s.writeReg a v).rmw = s.rmw := by unfold State.writeReg; dsimp only; split <;> simp
@[simp] theorem State.writeReg_osc (a v : Word) : (s.writeReg a v).osc = s.osc := by unfold State.writeReg; dsimp only; split <;> simp
@[simp] theorem State.writeReg_resp (a v : Word) : (s.writeReg a v).resp = s.resp := by unfold State.writeReg; dsimp only; split <;> simp
@[simp] theorem State.writeReg_life (a v : Word) : (s.writeReg a v).life = s.life := by unfold State.writeReg; dsimp only; split <;> simp
@[simp] theorem State.writeReg_events (a v : Word) : (s.writeReg a v).events = s.events := by unfold State.writeReg; dsimp only; split <;> simp
@[simp] theorem State.writeReg_inputs (a v : Word) : (s.writeReg a v).inputs = s.inputs := by unfold State.writeReg; dsimp only; split <;> simp
@[simp] theorem State.writeReg_hw (a v : Word) : (s.writeReg a v).hw = s.hw := by unfold State.writeReg; dsimp only; split <;> simp
@[simp] theorem State.writeReg_resetIn (a v : Word) : (s.writeReg a v).resetIn = s.resetIn := by unfold State.writeReg; dsimp only; split <;> simp
@[simp] theorem State.writeReg_hostWord (a v : Word) : (s.writeReg a v).hostWord = s.hostWord := by unfold State.writeReg; dsimp only; split <;> simp
@[simp] theorem State.writeReg_draws (a v : Word) : (s.writeReg a v).draws = s.draws := by unfold State.writeReg; dsimp only; split <;> simp

@[simp] theorem State.writeReg_disturbed (a v : Word) : (s.writeReg a v).disturbed = true := rfl

/-! `hwMove` -/

@[simp] theorem State.hwMove_cfg (m : HwMove) : (s.hwMove m).cfg = s.cfg := by cases m <;> simp only [State.hwMove] <;> (try split) <;> simp
@[simp] theorem State.hwMove_opR (m : HwMove) : (s.hwMove m).opR = s.opR := by cases m <;> simp only [State.hwMove] <;> (try split) <;> simp
@[simp] theorem State.hwMove_aR (m : HwMove) : (s.hwMove m).aR = s.aR := by cases m <;> simp only [State.hwMove] <;> (try split) <;> simp
@[simp] theorem State.hwMove_bR (m : HwMove) : (s.hwMove m).bR = s.bR := by cases m <;> simp only [State.hwMove] <;> (try split) <;> simp
@[simp] theorem State.hwMove_status (m : HwMove) : (s.hwMove m).status = s.status := by cases m <;> simp only [State.hwMove] <;> (try split) <;> simp
@[simp] theorem State.hwMove_value (m : HwMove) : (s.hwMove m).value = s.value := by cases m <;> simp only [State.hwMove] <;> (try split) <;> simp
@[simp] theorem State.hwMove_phase (m : HwMove) : (s.hwMove m).phase = s.phase := by cases m <;> simp only [State.hwMove] <;> (try split) <;> simp
@[simp] theorem State.hwMove_acc (m : HwMove) : (s.hwMove m).acc = s.acc := by cases m <;> simp only [State.hwMove] <;> (try split) <;> simp
@[simp] theorem State.hwMove_sp (m : HwMove) : (s.hwMove m).sp = s.sp := by cases m <;> simp only [State.hwMove] <;> (try split) <;> simp
@[simp] theorem State.hwMove_stk (m : HwMove) : (s.hwMove m).stk = s.stk := by cases m <;> simp only [State.hwMove] <;> (try split) <;> simp
@[simp] theorem State.hwMove_iter (m : HwMove) : (s.hwMove m).iter = s.iter := by cases m <;> simp only [State.hwMove] <;> (try split) <;> simp
@[simp] theorem State.hwMove_rmw (m : HwMove) : (s.hwMove m).rmw = s.rmw := by cases m <;> simp only [State.hwMove] <;> (try split) <;> simp
@[simp] theorem State.hwMove_osc (m : HwMove) : (s.hwMove m).osc = s.osc := by cases m <;> simp only [State.hwMove] <;> (try split) <;> simp
@[simp] theorem State.hwMove_resp (m : HwMove) : (s.hwMove m).resp = s.resp := by cases m <;> simp only [State.hwMove] <;> (try split) <;> simp
@[simp] theorem State.hwMove_events (m : HwMove) : (s.hwMove m).events = s.events := by cases m <;> simp only [State.hwMove] <;> (try split) <;> simp
@[simp] theorem State.hwMove_inputs (m : HwMove) : (s.hwMove m).inputs = s.inputs := by cases m <;> simp only [State.hwMove] <;> (try split) <;> simp
@[simp] theorem State.hwMove_hw (m : HwMove) : (s.hwMove m).hw = s.hw := by cases m <;> simp only [State.hwMove] <;> (try split) <;> simp
@[simp] theorem State.hwMove_resetIn (m : HwMove) : (s.hwMove m).resetIn = s.resetIn := by cases m <;> simp only [State.hwMove] <;> (try split) <;> simp
@[simp] theorem State.hwMove_hostWord (m : HwMove) : (s.hwMove m).hostWord = s.hostWord := by cases m <;> simp only [State.hwMove] <;> (try split) <;> simp
@[simp] theorem State.hwMove_draws (m : HwMove) : (s.hwMove m).draws = s.draws := by cases m <;> simp only [State.hwMove] <;> (try split) <;> simp

/-! `hwMoves` -/

@[simp] theorem State.hwMoves_cfg (ms : List HwMove) : (s.hwMoves ms).cfg = s.cfg := by
  induction ms generalizing s with
  | nil => rfl
  | cons m ms ih => exact (ih (s.hwMove m)).trans (s.hwMove_cfg m)
@[simp] theorem State.hwMoves_opR (ms : List HwMove) : (s.hwMoves ms).opR = s.opR := by
  induction ms generalizing s with
  | nil => rfl
  | cons m ms ih => exact (ih (s.hwMove m)).trans (s.hwMove_opR m)
@[simp] theorem State.hwMoves_aR (ms : List HwMove) : (s.hwMoves ms).aR = s.aR := by
  induction ms generalizing s with
  | nil => rfl
  | cons m ms ih => exact (ih (s.hwMove m)).trans (s.hwMove_aR m)
@[simp] theorem State.hwMoves_bR (ms : List HwMove) : (s.hwMoves ms).bR = s.bR := by
  induction ms generalizing s with
  | nil => rfl
  | cons m ms ih => exact (ih (s.hwMove m)).trans (s.hwMove_bR m)
@[simp] theorem State.hwMoves_status (ms : List HwMove) : (s.hwMoves ms).status = s.status := by
  induction ms generalizing s with
  | nil => rfl
  | cons m ms ih => exact (ih (s.hwMove m)).trans (s.hwMove_status m)
@[simp] theorem State.hwMoves_value (ms : List HwMove) : (s.hwMoves ms).value = s.value := by
  induction ms generalizing s with
  | nil => rfl
  | cons m ms ih => exact (ih (s.hwMove m)).trans (s.hwMove_value m)
@[simp] theorem State.hwMoves_phase (ms : List HwMove) : (s.hwMoves ms).phase = s.phase := by
  induction ms generalizing s with
  | nil => rfl
  | cons m ms ih => exact (ih (s.hwMove m)).trans (s.hwMove_phase m)
@[simp] theorem State.hwMoves_acc (ms : List HwMove) : (s.hwMoves ms).acc = s.acc := by
  induction ms generalizing s with
  | nil => rfl
  | cons m ms ih => exact (ih (s.hwMove m)).trans (s.hwMove_acc m)
@[simp] theorem State.hwMoves_sp (ms : List HwMove) : (s.hwMoves ms).sp = s.sp := by
  induction ms generalizing s with
  | nil => rfl
  | cons m ms ih => exact (ih (s.hwMove m)).trans (s.hwMove_sp m)
@[simp] theorem State.hwMoves_stk (ms : List HwMove) : (s.hwMoves ms).stk = s.stk := by
  induction ms generalizing s with
  | nil => rfl
  | cons m ms ih => exact (ih (s.hwMove m)).trans (s.hwMove_stk m)
@[simp] theorem State.hwMoves_iter (ms : List HwMove) : (s.hwMoves ms).iter = s.iter := by
  induction ms generalizing s with
  | nil => rfl
  | cons m ms ih => exact (ih (s.hwMove m)).trans (s.hwMove_iter m)
@[simp] theorem State.hwMoves_rmw (ms : List HwMove) : (s.hwMoves ms).rmw = s.rmw := by
  induction ms generalizing s with
  | nil => rfl
  | cons m ms ih => exact (ih (s.hwMove m)).trans (s.hwMove_rmw m)
@[simp] theorem State.hwMoves_osc (ms : List HwMove) : (s.hwMoves ms).osc = s.osc := by
  induction ms generalizing s with
  | nil => rfl
  | cons m ms ih => exact (ih (s.hwMove m)).trans (s.hwMove_osc m)
@[simp] theorem State.hwMoves_resp (ms : List HwMove) : (s.hwMoves ms).resp = s.resp := by
  induction ms generalizing s with
  | nil => rfl
  | cons m ms ih => exact (ih (s.hwMove m)).trans (s.hwMove_resp m)
@[simp] theorem State.hwMoves_events (ms : List HwMove) : (s.hwMoves ms).events = s.events := by
  induction ms generalizing s with
  | nil => rfl
  | cons m ms ih => exact (ih (s.hwMove m)).trans (s.hwMove_events m)
@[simp] theorem State.hwMoves_inputs (ms : List HwMove) : (s.hwMoves ms).inputs = s.inputs := by
  induction ms generalizing s with
  | nil => rfl
  | cons m ms ih => exact (ih (s.hwMove m)).trans (s.hwMove_inputs m)
@[simp] theorem State.hwMoves_hw (ms : List HwMove) : (s.hwMoves ms).hw = s.hw := by
  induction ms generalizing s with
  | nil => rfl
  | cons m ms ih => exact (ih (s.hwMove m)).trans (s.hwMove_hw m)
@[simp] theorem State.hwMoves_resetIn (ms : List HwMove) : (s.hwMoves ms).resetIn = s.resetIn := by
  induction ms generalizing s with
  | nil => rfl
  | cons m ms ih => exact (ih (s.hwMove m)).trans (s.hwMove_resetIn m)
@[simp] theorem State.hwMoves_hostWord (ms : List HwMove) : (s.hwMoves ms).hostWord = s.hostWord := by
  induction ms generalizing s with
  | nil => rfl
  | cons m ms ih => exact (ih (s.hwMove m)).trans (s.hwMove_hostWord m)
@[simp] theorem State.hwMoves_draws (ms : List HwMove) : (s.hwMoves ms).draws = s.draws := by
  induction ms generalizing s with
  | nil => rfl
  | cons m ms ih => exact (ih (s.hwMove m)).trans (s.hwMove_draws m)

/-! `pollHw` -/

@[simp] theorem State.pollHw_cfg : s.pollHw.cfg = s.cfg := by
  unfold State.pollHw; split <;> simp_all
@[simp] theorem State.pollHw_opR : s.pollHw.opR = s.opR := by
  unfold State.pollHw; split <;> simp_all
@[simp] theorem State.pollHw_aR : s.pollHw.aR = s.aR := by
  unfold State.pollHw; split <;> simp_all
@[simp] theorem State.pollHw_bR : s.pollHw.bR = s.bR := by
  unfold State.pollHw; split <;> simp_all
@[simp] theorem State.pollHw_status : s.pollHw.status = s.status := by
  unfold State.pollHw; split <;> simp_all
@[simp] theorem State.pollHw_value : s.pollHw.value = s.value := by
  unfold State.pollHw; split <;> simp_all
@[simp] theorem State.pollHw_phase : s.pollHw.phase = s.phase := by
  unfold State.pollHw; split <;> simp_all
@[simp] theorem State.pollHw_acc : s.pollHw.acc = s.acc := by
  unfold State.pollHw; split <;> simp_all
@[simp] theorem State.pollHw_sp : s.pollHw.sp = s.sp := by
  unfold State.pollHw; split <;> simp_all
@[simp] theorem State.pollHw_stk : s.pollHw.stk = s.stk := by
  unfold State.pollHw; split <;> simp_all
@[simp] theorem State.pollHw_iter : s.pollHw.iter = s.iter := by
  unfold State.pollHw; split <;> simp_all
@[simp] theorem State.pollHw_rmw : s.pollHw.rmw = s.rmw := by
  unfold State.pollHw; split <;> simp_all
@[simp] theorem State.pollHw_osc : s.pollHw.osc = s.osc := by
  unfold State.pollHw; split <;> simp_all
@[simp] theorem State.pollHw_resp : s.pollHw.resp = s.resp := by
  unfold State.pollHw; split <;> simp_all
@[simp] theorem State.pollHw_events : s.pollHw.events = s.events := by
  unfold State.pollHw; split <;> simp_all
@[simp] theorem State.pollHw_inputs : s.pollHw.inputs = s.inputs := by
  unfold State.pollHw; split <;> simp_all
@[simp] theorem State.pollHw_hw : s.pollHw.hw = s.hw.tail := by
  unfold State.pollHw; split <;> simp_all
@[simp] theorem State.pollHw_resetIn : s.pollHw.resetIn = s.resetIn := by
  unfold State.pollHw; split <;> simp_all
@[simp] theorem State.pollHw_hostWord : s.pollHw.hostWord = s.hostWord := by
  unfold State.pollHw; split <;> simp_all
@[simp] theorem State.pollHw_draws : s.pollHw.draws = s.draws := by
  unfold State.pollHw; split <;> simp_all

end Sys2Proof.Machine
end

