-- ==== Sys2Proof/Laws/Registers.lean ====
section
/-!
SUPPORT. What a read and a write of a register do (20_memory.md R53, R54, R58), and the single bits of masks.
-/

namespace Sys2Proof.Machine

/-! Bits of masks -/

/-- Bit `i` of the mask of bit `b`. -/
theorem getLsbD_bitMask (b i : Nat) : (bitMask b).getLsbD i = (decide (i < 32) && decide (i = b)) := by
  simp only [bitMask, BitVec.getLsbD_shiftLeft, BitVec.getLsbD_one]
  by_cases h : i = b
  · subst h; simp
  · by_cases h1 : i < b
    · simp [h, h1]
    · have : i - b ≠ 0 := by omega
      simp [h, this]

@[simp] theorem getElem_bitMask (b i : Nat) (h : i < 32) : (bitMask b)[i] = decide (i = b) := by
  rw [← BitVec.getLsbD_eq_getElem, getLsbD_bitMask]
  simp [h]

/-- Bit `i` of a mask of several bits. -/
theorem getLsbD_bitsMask (bs : List Nat) (i : Nat) :
    (bitsMask bs).getLsbD i = (decide (i < 32) && decide (i ∈ bs)) := by
  induction bs with
  | nil => simp [bitsMask]
  | cons b bs ih =>
    rw [show bitsMask (b :: bs) = bitMask b ||| bitsMask bs from rfl, BitVec.getLsbD_or, getLsbD_bitMask, ih]
    by_cases h : i < 32 <;> simp [h]

/-- Bit `i` of a word with bit `b` replaced. -/
theorem getLsbD_withBit (w : Word) (b i : Nat) (v : Bool) :
    (withBit w b v).getLsbD i = if i < 32 ∧ i = b then v else w.getLsbD i := by
  unfold withBit
  by_cases hi : i < 32
  · by_cases h : i = b
    · subst h; cases v <;> simp [hi]
    · cases v <;> simp [hi, h]
  · have : w.getLsbD i = false := BitVec.getLsbD_of_ge w i (by omega)
    cases v <;> simp [hi, this, getLsbD_bitMask]

/-! Stored words -/

theorem State.word_congr {s t : State} (h : s.mem = t.mem) (a : Word) : s.word a = t.word a := by
  simp only [State.word, h]

@[simp] theorem State.word_setWord_same (s : State) (a v : Word) : (s.setWord a v).word a = v := by
  simp [State.word]

theorem State.word_setWord_other (s : State) {a b : Word} (v : Word) (h : b ≠ a) :
    (s.setWord a v).word b = s.word b := by
  have : b.toNat ≠ a.toNat := fun e => h (BitVec.eq_of_toNat_eq e)
  simp [State.word, Memory.lookup_store_other _ _ this]

/-- A stored word after `setWord`. -/
theorem State.word_setWord (s : State) (a b v : Word) :
    (s.setWord a v).word b = if b = a then v else s.word b := by
  by_cases h : b = a
  · subst h; simp
  · simp [h, State.word_setWord_other s v h]

/-! Reads -/

theorem State.readReg_congr {s t : State} (hc : s.cfg = t.cfg) (hm : s.mem = t.mem) (a : Word) :
    s.readReg a = t.readReg a := by
  simp only [State.readReg, hc, State.word_congr hm]

/-- The status register reads as it is stored. -/
@[simp] theorem State.readReg_status (s : State) : s.readReg s.cfg.statusAddr = s.word s.cfg.statusAddr := by
  simp [State.readReg]

/-- A register other than the status-clear register reads as it is stored. -/
theorem State.readReg_of_ne (s : State) {a : Word} (h : a ≠ s.cfg.statclrAddr) : s.readReg a = s.word a := by
  simp [State.readReg, h]

/-- A plain register reads as it is stored (R58 (a)). -/
theorem State.readReg_plain (s : State) {a : Word} (h : isStatusReg s.cfg a = false) : s.readReg a = s.word a := by
  apply State.readReg_of_ne
  simp_all [isStatusReg]

/-! Writes -/

/-- A write of a plain register stores the word (R58 (a)). -/
theorem State.writeReg_plain (s : State) {a : Word} (v : Word) (h : isStatusReg s.cfg a = false) :
    s.writeReg a v = { s.setWord a v with disturbed := true } := by
  have h2 : a ≠ s.cfg.statclrAddr := by simp_all [isStatusReg]
  simp [State.writeReg, State.storeReg, h, h2]

/-- The word a plain register holds after a write of it. -/
theorem State.word_writeReg_plain (s : State) {a : Word} (v b : Word) (h : isStatusReg s.cfg a = false) :
    (s.writeReg a v).word b = if b = a then v else s.word b := by
  rw [State.writeReg_plain s v h]
  exact State.word_setWord s a b v

/-- A write changes no stored word but that of its register and, for the status-clear register, the status word. -/
theorem State.word_writeReg_other (s : State) {a b : Word} (v : Word) (h : b ≠ a)
    (hs : a = s.cfg.statclrAddr → b ≠ s.cfg.statusAddr) : (s.writeReg a v).word b = s.word b := by
  have hst : (s.storeReg a v).word b = s.word b := by
    unfold State.storeReg
    split <;> exact State.word_setWord_other s _ h
  unfold State.writeReg
  dsimp only
  split
  · rename_i ha
    refine Eq.trans ?_ hst
    show ((s.storeReg a v).clearLatches v).word b = _
    exact State.word_setWord_other _ _ (by simpa using hs ha)
  · exact hst

/-- A write keeps the register space in canonical form, where the registers it may touch are aligned. -/
theorem State.wf_setWord (s : State) (a v : Word) (h : s.mem.wf = true) (ha : a.toNat % 4 = 0) :
    (s.setWord a v).mem.wf = true := by
  simpa using Memory.wf_store s.mem a.toNat v h ha a.isLt

theorem State.wf_writeReg (s : State) (a v : Word) (h : s.mem.wf = true) (ha : a.toNat % 4 = 0)
    (hs : s.cfg.statusAddr.toNat % 4 = 0) : (s.writeReg a v).mem.wf = true := by
  have hst : (s.storeReg a v).mem.wf = true := by
    unfold State.storeReg
    split <;> exact State.wf_setWord s a _ h ha
  unfold State.writeReg
  dsimp only
  split
  · show ((s.storeReg a v).clearLatches v).mem.wf = true
    exact State.wf_setWord _ _ _ hst (by simpa using hs)
  · exact hst

end Sys2Proof.Machine
end

