-- ==== Sys2Proof/Laws/Ops.lean ====
section
/-!
SUPPORT. What each shared operation can do, said once: the transfers, the ends of an operation, the hardware's moves.
Proofs cite these instead of unfolding the operations.
-/

namespace Sys2Proof.Machine

/-! Sequencing -/

@[simp] theorem Res.andThen_ok {α β : Type} (a : α) (s : State) (k : α → State → Res β) :
    (Res.ok a s).andThen k = k a s := rfl

@[simp] theorem Res.andThen_failed {α β : Type} (f : Failure) (s : State) (k : α → State → Res β) :
    (Res.failed f s).andThen k = .failed f s := rfl

@[simp] theorem Res.andThen_resetHit {α β : Type} (s : State) (k : α → State → Res β) :
    (Res.resetHit s).andThen k = .resetHit s := rfl

@[simp] theorem Res.thenWalk_ok {α : Type} (a : α) (s : State) (k : α → State → Walk) :
    (Res.ok a s).thenWalk k = k a s := rfl

@[simp] theorem Res.thenWalk_failed {α : Type} (f : Failure) (s : State) (k : α → State → Walk) :
    (Res.failed f s).thenWalk k = .done (.failed f s) := rfl

@[simp] theorem Res.thenWalk_resetHit {α : Type} (s : State) (k : α → State → Walk) :
    (Res.resetHit s).thenWalk k = .done (.resetHit s) := rfl

@[simp] theorem Walk.thenStage_done (r : Res Word) (k : Word → State → Res Word) :
    (Walk.done r).thenStage k = .done (r.andThen k) := rfl

@[simp] theorem Walk.thenStage_stuck (f : Fault) (k : Word → State → Res Word) :
    (Walk.stuck f).thenStage k = .stuck f := rfl

/-! The hardware's moves -/

/-- The hardware's moves change the register space, the lifecycle, the disturbance and the schedule, nothing else. -/
theorem State.pollHw_eq (s : State) :
    s.pollHw = { s with
      mem := s.pollHw.mem, life := s.pollHw.life, disturbed := s.pollHw.disturbed, hw := s.hw.tail } := by
  rcases h : s.pollHw with ⟨⟩
  have := State.pollHw_cfg s
  have := State.pollHw_opR s
  have := State.pollHw_aR s
  have := State.pollHw_bR s
  have := State.pollHw_status s
  have := State.pollHw_value s
  have := State.pollHw_phase s
  have := State.pollHw_acc s
  have := State.pollHw_sp s
  have := State.pollHw_stk s
  have := State.pollHw_iter s
  have := State.pollHw_rmw s
  have := State.pollHw_osc s
  have := State.pollHw_resp s
  have := State.pollHw_events s
  have := State.pollHw_inputs s
  have := State.pollHw_hw s
  have := State.pollHw_resetIn s
  have := State.pollHw_hostWord s
  have := State.pollHw_draws s
  simp_all

/-- With nothing scheduled the hardware makes no move. -/
theorem State.pollHw_of_nil {s : State} (h : s.hw = []) : s.pollHw = s := by
  simp [State.pollHw, h]

@[simp] theorem State.hwMoves_nil (s : State) : s.hwMoves [] = s := rfl

@[simp] theorem State.hwMoves_cons (s : State) (m : HwMove) (ms : List HwMove) :
    s.hwMoves (m :: ms) = (s.hwMove m).hwMoves ms := rfl

/-- The hardware's moves keep the register space in canonical form. -/
theorem State.wf_hwMove (s : State) (m : HwMove) (h : s.mem.wf = true) (hs : s.cfg.statusAddr.toNat % 4 = 0)
    (hb : s.cfg.statAddr.toNat % 4 = 0) : (s.hwMove m).mem.wf = true := by
  have bit (u : State) (b : Nat) (v : Bool) (hu : u.mem.wf = true) (hc : u.cfg = s.cfg) :
      (u.setStatusBit b v).mem.wf = true := State.wf_setWord u _ _ hu (by rw [hc]; exact hs)
  cases m <;> simp only [State.hwMove]
  case lockAcquired p =>
    split
    · exact bit _ _ _ (bit _ _ _ h rfl) rfl
    · exact h
  case lockLost p =>
    split
    · exact bit _ _ _ (bit _ _ _ h rfl) rfl
    · exact h
  case lockBitWanders p b =>
    split
    · exact bit _ _ _ h rfl
    · exact h
  case busyRises =>
    split
    · exact State.wf_setWord s _ _ h hb
    · exact h
  case busyFalls => exact State.wf_setWord s _ _ h hb
  case drive a w =>
    split
    · rename_i ha; exact State.wf_setWord s _ _ h ha
    · exact h

theorem State.wf_hwMoves (ms : List HwMove) (s : State) (h : s.mem.wf = true)
    (hs : s.cfg.statusAddr.toNat % 4 = 0) (hb : s.cfg.statAddr.toNat % 4 = 0) : (s.hwMoves ms).mem.wf = true := by
  induction ms generalizing s with
  | nil => exact h
  | cons m ms ih => exact ih (s.hwMove m) (s.wf_hwMove m h hs hb) (by simpa using hs) (by simpa using hb)

theorem State.wf_pollHw (s : State) (h : s.mem.wf = true) (hs : s.cfg.statusAddr.toNat % 4 = 0)
    (hb : s.cfg.statAddr.toNat % 4 = 0) : s.pollHw.mem.wf = true := by
  unfold State.pollHw
  split
  · exact h
  · exact State.wf_hwMoves _ _ h hs hb

/-- A move of the hardware depends on, and changes, only the tables, the register space, the lifecycle and the
disturbance. -/
theorem State.hwMove_congr {s t : State} (m : HwMove) (hc : s.cfg = t.cfg) (hm : s.mem = t.mem)
    (hl : s.life = t.life) (hd : s.disturbed = t.disturbed) :
    (s.hwMove m).mem = (t.hwMove m).mem ∧ (s.hwMove m).life = (t.hwMove m).life ∧
      (s.hwMove m).disturbed = (t.hwMove m).disturbed := by
  cases m <;>
    simp only [State.hwMove, State.setStatusBit, State.setBusy, State.setLife, State.setWord, State.word, hc, hm, hl,
      hd] <;>
    (try split) <;> simp_all

theorem State.hwMoves_congr (ms : List HwMove) {s t : State} (hc : s.cfg = t.cfg) (hm : s.mem = t.mem)
    (hl : s.life = t.life) (hd : s.disturbed = t.disturbed) :
    (s.hwMoves ms).mem = (t.hwMoves ms).mem ∧ (s.hwMoves ms).life = (t.hwMoves ms).life ∧
      (s.hwMoves ms).disturbed = (t.hwMoves ms).disturbed := by
  induction ms generalizing s t with
  | nil => exact ⟨hm, hl, hd⟩
  | cons m ms ih =>
    obtain ⟨h1, h2, h3⟩ := State.hwMove_congr m hc hm hl hd
    exact ih (by simpa using hc) h1 h2 h3

/-- What the hardware does before a transfer depends only on the tables, the register space, the lifecycle, the
disturbance and the schedule. -/
theorem State.pollHw_congr {s t : State} (hc : s.cfg = t.cfg) (hm : s.mem = t.mem) (hl : s.life = t.life)
    (hd : s.disturbed = t.disturbed) (hh : s.hw = t.hw) :
    s.pollHw.mem = t.pollHw.mem ∧ s.pollHw.life = t.pollHw.life ∧ s.pollHw.disturbed = t.pollHw.disturbed := by
  unfold State.pollHw
  rw [← hh]
  split
  · exact ⟨hm, hl, hd⟩
  · exact State.hwMoves_congr _ hc hm hl hd

/-- Recording an event does not matter to the hardware. -/
theorem State.pollHw_record_comm (s : State) (e : Event) : (s.record e).pollHw = s.pollHw.record e := by
  obtain ⟨h1, h2, h3⟩ := State.pollHw_congr (s := s.record e) (t := s) rfl rfl rfl rfl rfl
  rw [State.pollHw_eq (s.record e), h1, h2, h3]
  conv_rhs => rw [State.pollHw_eq s]
  simp [State.record]

/-- Nor does the word held between the halves of a read-modify-write. -/
theorem State.pollHw_rmw_comm (s : State) (w : Word) :
    ({ s with rmw := w } : State).pollHw = { s.pollHw with rmw := w } := by
  obtain ⟨h1, h2, h3⟩ := State.pollHw_congr (s := { s with rmw := w }) (t := s) rfl rfl rfl rfl rfl
  rw [State.pollHw_eq { s with rmw := w }, h1, h2, h3]
  conv_rhs => rw [State.pollHw_eq s]

/-- States with the same tables and the same stored words read the same. -/
theorem KeepsRegisters.of_mem {s t : State} (hc : t.cfg = s.cfg) (hm : t.mem = s.mem) : KeepsRegisters s t :=
  fun x => State.readReg_congr hc hm x

/-! Transfers: what each can do -/

/-- Before a transfer, reset comes or the hardware moves. -/
theorem State.transferPoint_cases (s : State) :
    (s.resetIn = none ∧ s.transferPoint = .ok () s.pollHw) ∨
      (s.resetIn = some 0 ∧ s.transferPoint = .resetHit s) ∨
      ∃ k, s.resetIn = some (k + 1) ∧ s.transferPoint = .ok () { s with resetIn := some k }.pollHw := by
  unfold State.transferPoint
  split
  · exact .inl ⟨by assumption, rfl⟩
  · exact .inr (.inl ⟨by assumption, rfl⟩)
  · exact .inr (.inr ⟨_, by assumption, rfl⟩)

/-- With no reset coming, a transfer follows the hardware's moves. -/
theorem State.transferPoint_noReset {s : State} (h : s.resetIn = none) : s.transferPoint = .ok () s.pollHw := by
  simp [State.transferPoint, h]

/-- With no reset coming, a read yields the register's word, records the event and changes nothing else (R53). -/
theorem read32_noReset {s : State} (a : Word) (h : s.resetIn = none) :
    read32 a s = .ok (s.pollHw.readReg a) (s.pollHw.record (.rd a (s.pollHw.readReg a))) := by
  simp [read32, State.transferPoint_noReset h]

/-- With no reset coming, a write takes the effect of its register's class and records the event (R54). -/
theorem write32_noReset {s : State} (a v : Word) (h : s.resetIn = none) :
    write32 a v s = .ok () ((s.pollHw.writeReg a v).record (.wr a v)) := by
  simp [write32, State.transferPoint_noReset h]

/-- A read ends in a word and a state, or in a reset; never in a failure (20_memory.md R50: reliable). -/
theorem read32_cases (a : Word) (s : State) :
    (∃ u : State, read32 a s = .ok (u.readReg a) (u.record (.rd a (u.readReg a))) ∧
      (u = s.pollHw ∨ ∃ k, s.resetIn = some (k + 1) ∧ u = { s with resetIn := some k }.pollHw)) ∨
      (s.resetIn = some 0 ∧ read32 a s = .resetHit s) := by
  rcases s.transferPoint_cases with ⟨_, h⟩ | ⟨h0, h⟩ | ⟨k, hk, h⟩
  · exact .inl ⟨_, by simp [read32, h], .inl rfl⟩
  · exact .inr ⟨h0, by simp [read32, h]⟩
  · exact .inl ⟨_, by simp [read32, h], .inr ⟨k, hk, rfl⟩⟩

/-- A write ends in a state, or in a reset; never in a failure. -/
theorem write32_cases (a v : Word) (s : State) :
    (∃ u : State, write32 a v s = .ok () ((u.writeReg a v).record (.wr a v)) ∧
      (u = s.pollHw ∨ ∃ k, s.resetIn = some (k + 1) ∧ u = { s with resetIn := some k }.pollHw)) ∨
      (s.resetIn = some 0 ∧ write32 a v s = .resetHit s) := by
  rcases s.transferPoint_cases with ⟨_, h⟩ | ⟨h0, h⟩ | ⟨k, hk, h⟩
  · exact .inl ⟨_, by simp [write32, h], .inl rfl⟩
  · exact .inr ⟨h0, by simp [write32, h]⟩
  · exact .inl ⟨_, by simp [write32, h], .inr ⟨k, hk, rfl⟩⟩

/-- `set_bits32` with no reset coming: the word written is the word read with bits set, whatever happened between the
two transfers (R55, R57). -/
theorem setBits32_noReset {s : State} (a m : Word) (h : s.resetIn = none) :
    setBits32 a m s =
      let w := s.pollHw.readReg a
      let u := { s.pollHw.record (.rd a w) with rmw := w }
      .ok () ((u.pollHw.writeReg a (w ||| m)).record (.wr a (w ||| m))) := by
  simp only [setBits32, read32_noReset a h, Res.andThen_ok]
  exact write32_noReset _ _ (by simpa using h)

/-- `clear_bits32` with no reset coming (R56, R57). -/
theorem clearBits32_noReset {s : State} (a m : Word) (h : s.resetIn = none) :
    clearBits32 a m s =
      let w := s.pollHw.readReg a
      let u := { s.pollHw.record (.rd a w) with rmw := w }
      .ok () ((u.pollHw.writeReg a (w &&& ~~~m)).record (.wr a (w &&& ~~~m))) := by
  simp only [clearBits32, read32_noReset a h, Res.andThen_ok]
  exact write32_noReset _ _ (by simpa using h)

/-- A field read with no reset coming. -/
theorem readField_noReset {s : State} (f : Field) (h : s.resetIn = none) :
    readField f s =
      .ok (extract (s.pollHw.readReg f.addr) f) (s.pollHw.record (.rd f.addr (s.pollHw.readReg f.addr))) := by
  simp [readField, read32_noReset f.addr h]

/-! The ends of an operation -/

/-- A success with no reset coming. -/
theorem Res.conclude_ok {s : State} (v : Word) (h : s.resetIn = none) : (Res.ok v s).conclude = s.succeed v := by
  simp [Res.conclude, h]

/-- A failure with no reset coming (R209). -/
theorem Res.conclude_failed {s : State} (k : Failure) (h : s.resetIn = none) :
    (Res.failed k s).conclude = s.raiseFailure k := by
  simp [Res.conclude, h]

/-- However an operation ends, it responds, fails or is reset. -/
theorem Res.conclude_cases (r : Res Word) :
    (∃ v s, r = .ok v s ∧ r.conclude = s.succeed v) ∨ (∃ k s, r = .failed k s ∧ r.conclude = s.raiseFailure k) ∨
      ∃ s : State, r.conclude = s.blockReset := by
  rcases r with ⟨v, s⟩ | ⟨k, s⟩ | s
  · cases h : s.resetIn with
    | none => exact .inl ⟨v, s, rfl, Res.conclude_ok v h⟩
    | some n => exact .inr (.inr ⟨s, by simp [Res.conclude, h]⟩)
  · cases h : s.resetIn with
    | none => exact .inr (.inl ⟨k, s, rfl, Res.conclude_failed k h⟩)
    | some n => exact .inr (.inr ⟨s, by simp [Res.conclude, h]⟩)
  · exact .inr (.inr ⟨s, rfl⟩)

@[simp] theorem finish_eq (r : Res Word) : finish r = .next r.conclude := rfl

end Sys2Proof.Machine
end

