-- ==== Sys2Proof/Laws/Exec.lean ====
section
/-!
SUPPORT. What every operation is made of, said once: a property of states that the basic updates keep holds of the state
in which any operation comes to its end. The induction over RESOLVE's walk and SETTLE_WAIT's loop is done here.
-/

namespace Sys2Proof.Machine

/-- The operation writes to the register space (20_memory.md R66). -/
def writes : Instr → Prop
  | .statClear _ => True
  | .clkEnable _ => True
  | .clkDisable _ => True
  | _ => False

/-- The basic updates that operation `i` is made of keep `P`, under configuration `c`. -/
structure Stable (c : Config) (i : Instr) (P : State → Prop) : Prop where
  cfg : ∀ s, P s → s.cfg = c
  poll : ∀ s, P s → P s.pollHw
  countdown : ∀ s k, s.resetIn = some (k + 1) → P s → P { s with resetIn := some k }
  read : ∀ s a, a ∈ blockAddresses c → P s → P (s.record (.rd a (s.readReg a)))
  write : ∀ s a v, writes i → a ∈ blockAddresses c → P s → P ((s.writeReg a v).record (.wr a v))
  rmw : ∀ s w, P s → P { s with rmw := w }
  acc : ∀ s w, P s → P { s with acc := w }
  sp : ∀ s n, P s → P { s with sp := n }
  stk : ∀ s l, P s → P { s with stk := l }
  iter : ∀ s w, P s → P { s with iter := w }
  osc : ∀ s a b n, i = .oscSet a b → P s → P (s.setOscFreq n b)

/-- `P` holds of the state a part of an operation has got to. -/
def Res.Sat {α : Type} (P : State → Prop) (Q : α → Prop) : Res α → Prop
  | .ok a s => P s ∧ Q a
  | .failed _ s => P s
  | .resetHit s => P s ∧ s.resetIn ≠ none

/-- The same of a walk. -/
def Walk.Sat (P : State → Prop) : Walk → Prop
  | .done r => r.Sat P (fun _ => True)
  | .stuck _ => True

theorem Res.Sat.andThen {α β : Type} {P : State → Prop} {Q : α → Prop} {R : β → Prop} {r : Res α}
    {k : α → State → Res β} (h : r.Sat P Q) (hk : ∀ a s, P s → Q a → (k a s).Sat P R) : (r.andThen k).Sat P R := by
  cases r with
  | ok a s => exact hk a s h.1 h.2
  | failed f s => exact h
  | resetHit s => exact h

theorem Res.Sat.thenWalk {α : Type} {P : State → Prop} {Q : α → Prop} {r : Res α} {k : α → State → Walk}
    (h : r.Sat P Q) (hk : ∀ a s, P s → Q a → (k a s).Sat P) : (r.thenWalk k).Sat P := by
  cases r with
  | ok a s => exact hk a s h.1 h.2
  | failed f s => exact h
  | resetHit s => exact h

theorem Walk.Sat.thenStage {P : State → Prop} {w : Walk} {k : Word → State → Res Word} (h : w.Sat P)
    (hk : ∀ a s, P s → (k a s).Sat P (fun _ => True)) : (w.thenStage k).Sat P := by
  cases w with
  | done r => exact Res.Sat.andThen h (fun a s hs _ => hk a s hs)
  | stuck f => trivial

/-! Which addresses the operations use -/

theorem statusAddr_mem (c : Config) : c.statusAddr ∈ blockAddresses c := by simp [blockAddresses]

theorem statclrAddr_mem (c : Config) : c.statclrAddr ∈ blockAddresses c := by simp [blockAddresses]

theorem statAddr_mem (c : Config) : c.statAddr ∈ blockAddresses c := by simp [blockAddresses]

theorem ctrlAddr_mem (c : Config) : c.ctrlAddr ∈ blockAddresses c := by simp [blockAddresses, plainAddresses]

theorem bypassAddr_mem (c : Config) : c.bypassAddr ∈ blockAddresses c := by simp [blockAddresses, plainAddresses]

/-- The registers of a node's fields and gate are among the block's addresses. -/
theorem nodeAddress_mem {c : Config} {n : Nat} {node : Node} {a : Word} (h : c.topo[n]? = some node)
    (ha : a ∈ nodeAddresses node) : a ∈ blockAddresses c := by
  have : node ∈ c.topo := List.mem_of_getElem? h
  simp only [blockAddresses, plainAddresses, List.mem_append, List.mem_flatMap]
  exact .inr (.inr ⟨node, this, ha⟩)

/-- The gate the shared check finds is that of a node in range. -/
theorem gateOperand_ok {c : Config} {a : Word} {g : Gate} :
    gateOperand c a = .ok g ↔ a.toNat < c.nNodes ∧ gateOf c a.toNat = some g := by
  unfold gateOperand nodeId?
  by_cases h : a.toNat < c.nNodes
  · simp only [h, if_true, true_and]
    split <;> simp_all
  · simp [h]

/-- A gate's register is among the block's addresses. -/
theorem gateAddr_mem {c : Config} {n : Nat} {g : Gate} (h : gateOf c n = some g) : g.addr ∈ blockAddresses c := by
  unfold gateOf at h
  split at h
  · rename_i mux menu div gate hn
    exact nodeAddress_mem hn (by simp [nodeAddresses, nodeGate, h])
  · simp at h

namespace Stable

variable {c : Config} {i : Instr} {P : State → Prop}

theorem transferPoint (st : Stable c i P) {s : State} (h : P s) : s.transferPoint.Sat P (fun _ => True) := by
  rcases s.transferPoint_cases with ⟨_, e⟩ | ⟨h0, e⟩ | ⟨k, hk, e⟩ <;> rw [e]
  · exact ⟨st.poll s h, trivial⟩
  · exact ⟨h, by simp [h0]⟩
  · exact ⟨st.poll _ (st.countdown s k hk h), trivial⟩

theorem read32 (st : Stable c i P) {s : State} {a : Word} (ha : a ∈ blockAddresses c) (h : P s) :
    (read32 a s).Sat P (fun _ => True) :=
  Res.Sat.andThen (st.transferPoint h) (fun _ s hs _ => ⟨st.read s a ha hs, trivial⟩)

theorem write32 (st : Stable c i P) {s : State} {a v : Word} (hw : writes i) (ha : a ∈ blockAddresses c) (h : P s) :
    (write32 a v s).Sat P (fun _ => True) :=
  Res.Sat.andThen (st.transferPoint h) (fun _ s hs _ => ⟨st.write s a v hw ha hs, trivial⟩)

theorem readField (st : Stable c i P) {s : State} {f : Field} (ha : f.addr ∈ blockAddresses c) (h : P s) :
    (readField f s).Sat P (fun _ => True) :=
  Res.Sat.andThen (st.read32 ha h) (fun _ _ hs _ => ⟨hs, trivial⟩)

theorem selectParent (st : Stable c i P) {s : State} {f : Field} {menu : Menu} (ha : f.addr ∈ blockAddresses c)
    (h : P s) : (selectParent f menu s).Sat P (fun _ => True) :=
  Res.Sat.andThen (st.readField ha h) (fun v s hs _ => by
    split
    · exact hs
    · exact ⟨hs, trivial⟩)

theorem pllStage (st : Stable c i P) {s : State} (fp n d : Word) (h : P s) :
    (pllStage fp n d s).Sat P (fun _ => True) := by
  unfold Machine.pllStage
  dsimp only
  split
  · exact st.acc s _ h
  · exact ⟨st.acc s _ h, trivial⟩

theorem derivedStage (st : Stable c i P) {s : State} (fp r : Word) (h : P s) :
    (derivedStage fp r s).Sat P (fun _ => True) := ⟨st.acc s _ h, trivial⟩

theorem resolveNode (st : Stable c i P) (fuel n : Nat) {s : State} (h : P s) : (resolveNode fuel n s).Sat P := by
  induction fuel generalizing n s with
  | zero => trivial
  | succ fuel ih =>
    have hv : P (s.visit n) := st.stk s _ h
    have hc : (s.visit n).cfg = c := st.cfg _ hv
    unfold Machine.resolveNode
    dsimp only
    split
    · trivial
    · split
      · trivial
      · exact ⟨hv, trivial⟩
    · rename_i p mux menu numer denom hn
      rw [hc] at hn
      have mem {a : Word} (ha : a ∈ ratioAddresses (.pll p mux menu numer denom)) : a ∈ blockAddresses c :=
        nodeAddress_mem hn (by simp [nodeAddresses, ha])
      refine Res.Sat.thenWalk (st.selectParent (mem (by simp [ratioAddresses])) hv) fun m s hs _ => ?_
      refine Walk.Sat.thenStage (ih m (st.sp s _ hs)) fun fp s hs => ?_
      refine Res.Sat.andThen (st.readField (mem (by simp [ratioAddresses])) (st.sp s _ hs)) fun rn s hs _ => ?_
      exact Res.Sat.andThen (st.readField (mem (by simp [ratioAddresses])) hs) fun rd s hs _ => st.pllStage fp rn rd hs
    · rename_i mux menu div gate hn
      rw [hc] at hn
      have mem {a : Word} (ha : a ∈ ratioAddresses (.derived mux menu div gate)) : a ∈ blockAddresses c :=
        nodeAddress_mem hn (by simp only [nodeAddresses, List.mem_append]; exact .inl ha)
      refine Res.Sat.thenWalk (st.selectParent (mem (by simp [ratioAddresses])) hv) fun m s hs _ => ?_
      refine Walk.Sat.thenStage (ih m (st.sp s _ hs)) fun fp s hs => ?_
      exact Res.Sat.andThen (st.readField (mem (by simp [ratioAddresses])) (st.sp s _ hs)) fun r s hs _ =>
        st.derivedStage fp r hs

theorem settleLoop (st : Stable c i P) (n : Nat) {s : State} (h : P s) :
    (settleLoop n s).Sat P (fun _ => True) := by
  induction n generalizing s with
  | zero => exact h
  | succ n ih =>
    unfold Machine.settleLoop
    rw [st.cfg s h]
    refine Res.Sat.andThen (st.read32 (statAddr_mem c) h) fun w s hs _ => ?_
    split
    · exact ih (st.iter s _ hs)
    · exact ⟨st.iter s _ hs, trivial⟩

theorem setBits32 (st : Stable c i P) {s : State} {a m : Word} (hw : writes i) (ha : a ∈ blockAddresses c) (h : P s) :
    (setBits32 a m s).Sat P (fun _ => True) :=
  Res.Sat.andThen (st.read32 ha h) (fun _ s hs _ => st.write32 hw ha (st.rmw s _ hs))

theorem clearBits32 (st : Stable c i P) {s : State} {a m : Word} (hw : writes i) (ha : a ∈ blockAddresses c)
    (h : P s) : (clearBits32 a m s).Sat P (fun _ => True) :=
  Res.Sat.andThen (st.read32 ha h) (fun _ s hs _ => st.write32 hw ha (st.rmw s _ hs))

/-- How an operation that came to its end ended: in a success or a failure that no reset preceded, or in a reset, in
each case from a state of which `P` holds. -/
def Ended (P : State → Prop) (t : State) : Prop :=
  ∃ u, P u ∧ ((u.resetIn = none ∧ ∃ v, t = u.succeed v) ∨ (u.resetIn = none ∧ ∃ k, t = u.raiseFailure k) ∨
    (u.resetIn ≠ none ∧ t = u.blockReset))

theorem conclude {Q : Word → Prop} {r : Res Word} (h : r.Sat P Q) : Ended P r.conclude := by
  rcases r with ⟨v, s⟩ | ⟨k, s⟩ | s
  · cases hr : s.resetIn with
    | none => exact ⟨s, h.1, .inl ⟨hr, v, Res.conclude_ok v hr⟩⟩
    | some n => exact ⟨s, h.1, .inr (.inr ⟨by simp [hr], by simp [Res.conclude, hr]⟩)⟩
  · cases hr : s.resetIn with
    | none => exact ⟨s, h, .inr (.inl ⟨hr, k, Res.conclude_failed k hr⟩)⟩
    | some n => exact ⟨s, h, .inr (.inr ⟨by simp [hr], by simp [Res.conclude, hr]⟩)⟩
  · exact ⟨s, h.1, .inr (.inr ⟨h.2, rfl⟩)⟩

theorem finish {r : Res Word} {t : State} (h : r.Sat P (fun _ => True)) (e : finish r = .next t) : Ended P t := by
  rw [finish_eq, Host.Outcome.next.injEq] at e
  exact e ▸ conclude h

/-- What holds at the start of an operation, and is kept by the basic updates it is made of, holds at its end. -/
theorem exec {s t : State} (st : Stable s.cfg i P) (h : P s) (e : exec i s = .next t) : Ended P t := by
  cases i with
  | resolve a =>
    simp only [Machine.exec, execResolve] at e
    split at e
    · exact finish (r := .failed .badArgument s) h e
    · have hw := st.resolveNode (s.cfg.maxDepth + 1) (by assumption) (st.sp s 0 h)
      revert e hw
      generalize Machine.resolveNode _ _ _ = w
      intro e hw
      cases w with
      | done r => exact finish hw e
      | stuck f => exact absurd e (by simp [Walk.outcome])
  | oscSet a b =>
    refine finish ?_ e
    split
    · exact h
    · exact ⟨st.osc s a b _ rfl h, trivial⟩
  | pllLocked a =>
    refine finish ?_ e
    split
    · exact h
    · exact (st.read32 (statusAddr_mem _) h).andThen fun _ _ hs _ => ⟨hs, trivial⟩
  | pllBypassed a =>
    refine finish ?_ e
    split
    · exact h
    · refine (st.read32 (ctrlAddr_mem _) h).andThen fun c s' hs _ => ?_
      rw [st.cfg s' hs]
      exact (st.read32 (bypassAddr_mem _) hs).andThen fun _ _ hs _ => ⟨hs, trivial⟩
  | statClear a =>
    refine finish ?_ e
    split
    · exact (st.write32 trivial (statclrAddr_mem _) h).andThen fun _ _ hs _ => ⟨hs, trivial⟩
    · exact h
  | clkEnable a =>
    refine finish ?_ e
    split
    · exact h
    · rename_i g hg
      exact (st.setBits32 trivial (gateAddr_mem (gateOperand_ok.mp hg).2) h).andThen fun _ _ hs _ => ⟨hs, trivial⟩
  | clkDisable a =>
    refine finish ?_ e
    split
    · exact h
    · rename_i g hg
      exact (st.clearBits32 trivial (gateAddr_mem (gateOperand_ok.mp hg).2) h).andThen fun _ _ hs _ => ⟨hs, trivial⟩
  | clkEnabled a =>
    refine finish ?_ e
    split
    · exact h
    · rename_i g hg
      exact (st.read32 (gateAddr_mem (gateOperand_ok.mp hg).2) h).andThen fun _ _ hs _ => ⟨hs, trivial⟩
  | settleWait => exact finish (st.settleLoop _ (st.iter s _ h)) e
  | reserved0 => exact finish (r := .failed .badArgument s) h e
  | reservedA => exact finish (r := .failed .badArgument s) h e
  | reservedB => exact finish (r := .failed .badArgument s) h e
  | reservedC => exact finish (r := .failed .badArgument s) h e
  | reservedD => exact finish (r := .failed .badArgument s) h e
  | reservedE => exact finish (r := .failed .badArgument s) h e
  | reservedF => exact finish (r := .failed .badArgument s) h e

end Stable

end Sys2Proof.Machine
end

