-- ==== Sys2Proof/Laws/Lifecycle.lean ====
section
/-!
SUPPORT. What the clock hardware's bit updates and a direct host write can do (42_settle_and_lifecycle.md R177 to R184),
said once, and the small lemmas of a sequence of transfers. Proofs cite these instead of unfolding the operations.
-/

namespace Sys2Proof

/-! A table of three entries -/

@[simp] theorem PerPll.get_set_same {α : Type} (t : PerPll α) (p : PllId) (a : α) : (t.set p a).get p = a := by
  cases p <;> rfl

theorem PerPll.get_set_other {α : Type} (t : PerPll α) {p q : PllId} (a : α) (h : q ≠ p) :
    (t.set p a).get q = t.get q := by
  cases p <;> cases q <;> first | exact absurd rfl h | rfl

end Sys2Proof

namespace Sys2Proof.Machine

/-! The hardware's bits -/

/-- A stored word after the clock hardware replaced a bit of the status register. -/
theorem State.word_setStatusBit (s : State) (b : Nat) (v : Bool) (x : Word) :
    (s.setStatusBit b v).word x =
      if x = s.cfg.statusAddr then withBit (s.word s.cfg.statusAddr) b v else s.word x :=
  s.word_setWord _ _ _

/-- A stored word after the clock hardware replaced the busy bit. -/
theorem State.word_setBusy (s : State) (v : Bool) (x : Word) :
    (s.setBusy v).word x =
      if x = s.cfg.statAddr then withBit (s.word s.cfg.statAddr) s.cfg.busyBit v else s.word x :=
  s.word_setWord _ _ _

/-! What a host write does to one PLL -/

/-- A ratio change is given a meaning exactly from BYPASSED and RECONFIGURING (R177, R183). -/
theorem lifeAfterRatio_some {l l' : Life} {changed : Bool} (h : lifeAfterRatio l changed = some l') :
    (changed = false ∧ l' = l) ∨ (changed = true ∧ l' = .reconfiguring ∧ (l = .bypassed ∨ l = .reconfiguring)) := by
  cases changed <;> cases l <;> simp_all [lifeAfterRatio]

theorem lifeAfterRatio_none {l : Life} {changed : Bool} :
    lifeAfterRatio l changed = none ↔ changed = true ∧ (l = .locking ∨ l = .locked) := by
  cases changed <;> cases l <;> simp [lifeAfterRatio]

/-- Bypass is not asserted and lifted by one write. -/
theorem not_bypassLifted_of_bypassAsserted {s t : State} {p : PllId} (h : bypassAsserted s t p = true) :
    bypassLifted s t p = false := by
  simp only [bypassAsserted, Bool.or_eq_true, Bool.and_eq_true] at h
  rcases h with ⟨-, h⟩ | ⟨-, h⟩ <;> simp [bypassLifted, State.byp, h]

/-- A host write moves one PLL in one of three ways, or is refused as an illegal ratio change. -/
theorem State.hostMovesPll_cases (s before after : State) (p : PllId) :
    (lifeAfterRatio (s.life.get p) (decide (before.ratio p ≠ after.ratio p)) = none ∧
        s.hostMovesPll before after p = .refused (.illegalRatioWrite p)) ∨
      ∃ l, lifeAfterRatio (s.life.get p) (decide (before.ratio p ≠ after.ratio p)) = some l ∧
        ((bypassAsserted before after p = true ∧
            s.hostMovesPll before after p =
              .next { (s.setLife p .bypassed).setStatusBit (s.cfg.lockedBit.get p) (Config.freeBit s.draws) with
                draws := s.draws + 1 }) ∨
          (bypassAsserted before after p = false ∧ bypassLifted before after p = true ∧
            s.hostMovesPll before after p =
              .next ((s.setLife p .locking).setStatusBit (s.cfg.lockedBit.get p) false)) ∨
          (bypassAsserted before after p = false ∧ bypassLifted before after p = false ∧
            s.hostMovesPll before after p = .next (s.setLife p l))) := by
  unfold State.hostMovesPll
  cases lifeAfterRatio (s.life.get p) (decide (before.ratio p ≠ after.ratio p)) with
  | none => exact .inl ⟨rfl, rfl⟩
  | some l =>
    refine .inr ⟨l, rfl, ?_⟩
    cases bypassAsserted before after p <;> cases bypassLifted before after p <;> simp

/-- A host write that completes was aligned, and moved the three PLLs one after another (R177 to R183). -/
theorem State.hostWrite_next {s t : State} {addr v : Word} (h : s.hostWrite addr v = .next t) :
    addr.toNat % 4 = 0 ∧ ∃ t1 t2,
      (s.writeReg addr v).hostMovesPll s (s.writeReg addr v) .primary = .next t1 ∧
        t1.hostMovesPll s (s.writeReg addr v) .peripheral = .next t2 ∧
        t2.hostMovesPll s (s.writeReg addr v) .memory = .next t := by
  have next {o : Host.Outcome State Fault Refusal} {k : State → Host.Outcome State Fault Refusal}
      (h : andNext o k = .next t) : ∃ u, o = .next u ∧ k u = .next t := by
    cases o with
    | next u => exact ⟨u, rfl, h⟩
    | fault f => simp [andNext] at h
    | refused r => simp [andNext] at h
  unfold State.hostWrite at h
  split at h
  · obtain ⟨t1, h1, h⟩ := next h
    obtain ⟨t2, h2, h⟩ := next h
    exact ⟨by assumption, t1, t2, h1, h2, h⟩
  · cases h

/-! A sequence of transfers -/

@[simp] theorem afterTransfers_nil (s : State) : afterTransfers s [] = s := rfl

@[simp] theorem afterTransfers_cons (s : State) (e : Event) (es : List Event) :
    afterTransfers s (e :: es) = afterTransfers (afterTransfer s e) es := rfl

theorem afterTransfers_append (s : State) (es es' : List Event) :
    afterTransfers s (es ++ es') = afterTransfers (afterTransfers s es) es' := List.foldl_append ..

@[simp] theorem afterTransfer_cfg (s : State) (e : Event) : (afterTransfer s e).cfg = s.cfg := by
  cases e <;> simp [afterTransfer]

@[simp] theorem afterTransfers_cfg (s : State) (es : List Event) : (afterTransfers s es).cfg = s.cfg := by
  induction es generalizing s with
  | nil => rfl
  | cons e es ih => simp [ih]

theorem SameSurroundings.refl (s : State) : SameSurroundings s s := ⟨fun _ => rfl, rfl, rfl⟩

theorem SameSurroundings.trans {s t u : State} (h : SameSurroundings s t) (h' : SameSurroundings t u) :
    SameSurroundings s u :=
  ⟨fun x => (h'.1 x).trans (h.1 x), h'.2.1.trans h.2.1, h'.2.2.trans h.2.2⟩

end Sys2Proof.Machine
end

