-- ==== Sys2Proof/Laws/PerInstr.lean ====
section
/-!
SUPPORT. The per-instruction family EncodedFields: the encoding of an instruction holds its opcode and its argument
fields where 30_encoding.md R81 puts them. One lemma per constructor of Instr.
-/

namespace Sys2Proof.Laws

theorem opField_packCommand (op : BitVec 4) (a b : Word) : opField (packCommand op a b) = op := by
  apply BitVec.eq_of_getLsbD_eq
  intro i hi
  simp only [opField, packCommand, BitVec.getLsbD_extractLsb', BitVec.getLsbD_append, hi, decide_true, Bool.true_and]
  rw [if_neg (by omega), if_neg (by omega)]
  congr 1
  omega

theorem aField_packCommand (op : BitVec 4) (a b : Word) : aField (packCommand op a b) = a := by
  apply BitVec.eq_of_getLsbD_eq
  intro i hi
  simp only [aField, packCommand, BitVec.getLsbD_extractLsb', BitVec.getLsbD_append, hi, decide_true, Bool.true_and]
  rw [if_neg (by omega), if_pos (by omega)]
  congr 1
  omega

theorem bField_packCommand (op : BitVec 4) (a b : Word) : bField (packCommand op a b) = b := by
  apply BitVec.eq_of_getLsbD_eq
  intro i hi
  simp only [bField, packCommand, BitVec.getLsbD_extractLsb', BitVec.getLsbD_append, hi, decide_true, Bool.true_and]
  rw [if_pos (by omega)]
  congr 1
  omega

namespace EncodedFields

/-- The encoding of `i` holds its opcode in bits 67 to 64, its first argument in bits 63 to 32 and its second in bits
31 to 0 (R81). -/
def Statement (i : Instr) : Prop :=
  opField (encode i) = i.opcode ∧ aField (encode i) = i.fieldA ∧ bField (encode i) = i.fieldB

theorem of_pack (i : Instr) : Statement i :=
  ⟨opField_packCommand _ _ _, aField_packCommand _ _ _, bField_packCommand _ _ _⟩

theorem resolve (a : Word) : Statement (.resolve a) := of_pack _

theorem oscSet (a b : Word) : Statement (.oscSet a b) := of_pack _

theorem pllLocked (a : Word) : Statement (.pllLocked a) := of_pack _

theorem pllBypassed (a : Word) : Statement (.pllBypassed a) := of_pack _

theorem statClear (a : Word) : Statement (.statClear a) := of_pack _

theorem clkEnable (a : Word) : Statement (.clkEnable a) := of_pack _

theorem clkDisable (a : Word) : Statement (.clkDisable a) := of_pack _

theorem clkEnabled (a : Word) : Statement (.clkEnabled a) := of_pack _

theorem settleWait : Statement .settleWait := of_pack _

theorem reserved0 : Statement .reserved0 := of_pack _

theorem reservedA : Statement .reservedA := of_pack _

theorem reservedB : Statement .reservedB := of_pack _

theorem reservedC : Statement .reservedC := of_pack _

theorem reservedD : Statement .reservedD := of_pack _

theorem reservedE : Statement .reservedE := of_pack _

theorem reservedF : Statement .reservedF := of_pack _

end EncodedFields

end Sys2Proof.Laws
end

