-- ==== Sys2Proof/Tests/Slice0.lean ====
section
/-!
SUPPORT. Tests. Expected results are those of 95_test_vectors.md ("V" and "P" numbers) or counted by hand from the
rule named; none comes from a run of the model. The theorems `witness_…` each show a state and operands that meet the
hypotheses of the obligation of that name.
-/

namespace Sys2Proof.Tests

open Sys2Proof Sys2Proof.Machine

/-! ## The configuration check: REF passes, and each condition refuses an ill-formed configuration -/

/-- REF with its topology replaced. -/
def withTopo (t : List Node) : Config := { Config.ref with topo := t }

/-- REF with node `n` replaced. -/
def withNode (n : Nat) (node : Node) : Config := withTopo (Config.ref.topo.set n node)

/-- A derived clock over the register at `addr`. -/
def derivedAt (menu : Menu) (addr : Word) (lsb width : Nat) (gate : Option Gate) : Node :=
  .derived ⟨addr, 8, 2⟩ menu ⟨addr, lsb, width⟩ gate

theorem test_wf_ref : Config.ref.wf = true := by decide

/-- 00_scope.md R9: `N_NODES` ≥ 4. -/
theorem test_wf_too_few_nodes :
    (withTopo (Config.ref.topo.take 3)).enoughNodes = false ∧ (withTopo (Config.ref.topo.take 3)).wf = false := by decide

/-- R9: `N_OSC` ≥ 1. -/
theorem test_wf_no_oscillators :
    { Config.ref with oscDefault := [] }.enoughOscs = false ∧ { Config.ref with oscDefault := [] }.wf = false := by
  decide

/-- 10_state.md R34 (a): a menu names node 7 of 7. -/
theorem test_wf_menu_out_of_range :
    (withNode 6 (derivedAt [(0, 7)] 0x10000020#32 0 8 none)).menusInRange = false ∧
      (withNode 6 (derivedAt [(0, 7)] 0x10000020#32 0 8 none)).wf = false := by decide

/-- R34 (b): a derived clock that can select itself. -/
theorem test_wf_cycle :
    (withNode 6 (derivedAt [(0, 6)] 0x10000020#32 0 8 none)).acyclic = false ∧
      (withNode 6 (derivedAt [(0, 6)] 0x10000020#32 0 8 none)).wf = false := by decide

/-- R34 (c): a PLL that can select a PLL. -/
theorem test_wf_pll_under_pll :
    (withNode 4 (.pll .peripheral ⟨0x10000014#32, 24, 2⟩ [(0, 3)] ⟨0x10000014#32, 0, 12⟩ ⟨0x10000014#32, 16, 6⟩)).pllMenusAreOscs =
        false ∧
      (withNode 4
        (.pll .peripheral ⟨0x10000014#32, 24, 2⟩ [(0, 3)] ⟨0x10000014#32, 0, 12⟩ ⟨0x10000014#32, 16, 6⟩)).wf =
        false := by decide

/-- R34 (d): a derived clock that can select what is no node. -/
theorem test_wf_derived_menu_no_node :
    (withNode 6 (derivedAt [(0, 9)] 0x10000020#32 0 8 none)).derivedMenusAreNodes = false := by decide

/-- R34 (e): two PLL nodes of index 0. -/
theorem test_wf_two_primaries :
    (withNode 4 (refPll .primary 0x10000014#32)).threePlls = false ∧
      (withNode 4 (refPll .primary 0x10000014#32)).wf = false := by decide

/-- R34 (f): oscillator index 0 twice. -/
theorem test_wf_oscillator_twice :
    (withNode 1 (.osc 0)).oscsOnce = false ∧ (withNode 1 (.osc 0)).wf = false := by decide

/-- R34 (g): the longest path of REF has 2 edges. -/
theorem test_wf_depth :
    { Config.ref with maxDepth := 1 }.deepEnough = false ∧ { Config.ref with maxDepth := 1 }.wf = false ∧
      { Config.ref with maxDepth := 2 }.wf = true := by decide

/-- R34 (h), R31, R32, R8: a field that runs over bit 31; a field of width 0; an unaligned field; a gate bit 32; a
numerator of 13 bits. -/
theorem test_wf_descriptors :
    (withNode 6 (derivedAt [(0, 3)] 0x10000020#32 25 8 none)).descriptorsWf = false ∧
      (withNode 6 (derivedAt [(0, 3)] 0x10000020#32 0 0 none)).descriptorsWf = false ∧
      (withNode 6 (derivedAt [(0, 3)] 0x10000022#32 0 8 none)).descriptorsWf = false ∧
      (withNode 6 (derivedAt [(0, 3)] 0x10000020#32 0 8 (some ⟨0x1000001C#32, 32⟩))).descriptorsWf = false ∧
      (withNode 4
        (.pll .peripheral ⟨0x10000014#32, 24, 2⟩ [] ⟨0x10000014#32, 0, 13⟩ ⟨0x10000014#32, 16, 6⟩)).wf = false := by
  decide

/-- R9: `ADDR_STAT` is a multiple of 4. -/
theorem test_wf_unaligned_register :
    { Config.ref with statAddr := 0x1000000E#32 }.regmapAligned = false ∧
      { Config.ref with statAddr := 0x1000000E#32 }.wf = false := by decide

/-- R9: `ADDR_CTRL` is `CM_BASE` plus an offset. -/
theorem test_wf_below_base :
    { Config.ref with base := 0x10000004#32 }.regmapAboveBase = false ∧
      { Config.ref with base := 0x10000004#32 }.wf = false := by decide

/-- R9: `BIT_BUSY` is at most 31. -/
theorem test_wf_bit_position :
    { Config.ref with busyBit := 32 }.regmapBits = false ∧ { Config.ref with busyBit := 32 }.wf = false := by decide

/-- R9: the bypass-select bits are distinct. -/
theorem test_wf_bypass_bits :
    { Config.ref with bypassBit := ⟨0, 1, 1⟩ }.bypassBitsDistinct = false ∧
      { Config.ref with bypassBit := ⟨0, 1, 1⟩ }.wf = false := by decide

/-- R9, 41_pll_monitor.md R146: a lock bit at the position of a latch. -/
theorem test_wf_lock_bit_is_latch :
    { Config.ref with lockedBit := ⟨6, 7, 5⟩ }.statusBitsDistinct = false ∧
      { Config.ref with lockedBit := ⟨6, 7, 5⟩ }.wf = false := by decide

/-- R9: `SETTLE_BOUND` is 1 to 2^32 − 1. -/
theorem test_wf_settle_bound :
    { Config.ref with settleBound := 0 }.wf = false ∧ { Config.ref with settleBound := 4294967296 }.wf = false ∧
      { Config.ref with settleBound := 4294967295 }.wf = true := by decide

/-! ## Decoding: every row's word written out from 30_encoding.md R81, R85, R88 -/

theorem test_decode_resolve : decode 0x1_00000006_00000000#68 = .resolve 6#32 := by decide

theorem test_decode_oscSet : decode 0x2_00000001_016E3600#68 = .oscSet 1#32 24000000#32 := by decide

theorem test_decode_pllLocked : decode 0x3_00000002_00000000#68 = .pllLocked 2#32 := by decide

theorem test_decode_pllBypassed : decode 0x4_00000001_00000000#68 = .pllBypassed 1#32 := by decide

theorem test_decode_statClear : decode 0x5_8000003F_00000000#68 = .statClear 0x8000003F#32 := by decide

theorem test_decode_clkEnable : decode 0x6_FFFFFFFF_00000000#68 = .clkEnable 0xFFFFFFFF#32 := by decide

theorem test_decode_clkDisable : decode 0x7_80000001_00000000#68 = .clkDisable 0x80000001#32 := by decide

theorem test_decode_clkEnabled : decode 0x8_00000006_DEADBEEF#68 = .clkEnabled 6#32 := by decide

theorem test_decode_settleWait : decode 0x9_12345678_9ABCDEF0#68 = .settleWait := by decide

theorem test_decode_reserved :
    decode 0x0_00000000_00000000#68 = .reserved0 ∧ decode 0xA_00000000_00000000#68 = .reservedA ∧
      decode 0xB_00000000_00000000#68 = .reservedB ∧ decode 0xC_00000000_00000000#68 = .reservedC ∧
      decode 0xD_00000000_00000000#68 = .reservedD ∧ decode 0xE_00000000_00000000#68 = .reservedE ∧
      decode 0xF_FFFFFFFF_FFFFFFFF#68 = .reservedF := by decide

/-- Every operation encodes to the word written out above, unused fields zero (R89). -/
theorem test_encode :
    encode (.oscSet 0#32 50000000#32) = 0x2_00000000_02FAF080#68 ∧ encode .settleWait = 0x9_00000000_00000000#68 ∧
      encode (.statClear 9#32) = 0x5_00000009_00000000#68 := by decide

/-- A word with a bit above its 68 is refused; 72 bits is the table's width in whole bytes. -/
theorem test_decodeTableWord :
    decodeTableWord 72 0x100000000000000000 = none ∧
      decodeTableWord 72 0x10000000600000000 = some (.resolve 6#32) := by decide

/-! ## One step on a small state -/

/-- REF's register space, register by register. -/
def regs (ctrl bypass status stat pll0 pll1 pll2 clken mmc : Word) : Memory :=
  [(0x10000000, ctrl), (0x10000004, bypass), (0x10000008, status), (0x1000000C, stat), (0x10000010, pll0),
    (0x10000014, pll1), (0x10000018, pll2), (0x1000001C, clken), (0x10000020, mmc)]

/-- The machine after reset over the given register space, every PLL LOCKED. -/
def bench (m : Memory) : State := { State.reset with mem := m, life := ⟨.locked, .locked, .locked⟩ }

/-- The registers of P2's start: PLLCFG0 31, MMCCLK 3, the primary PLL locked. -/
def quiet : State := bench (regs 0#32 0#32 0x41#32 0#32 0x1F#32 0#32 0#32 1#32 3#32)

/-- The same with the oscillators and the word of PLLCFG0 given. -/
def pllCase (f cfg0 : Word) : State :=
  { bench (regs 0#32 0#32 0#32 0#32 cfg0 0#32 0#32 0#32 0#32) with osc := [⟨f, 0#32, 0#32, true⟩] ++ State.reset.osc.drop 1 }

/-- The machine over a status word. -/
def statusCase (w : Word) : State := bench (regs 0#32 0#32 w 0#32 0#32 0#32 0#32 0#32 0#32)

/-- The machine over a clock-enable word. -/
def gateCase (w : Word) : State := bench (regs 0#32 0#32 0#32 0#32 0#32 0#32 0#32 w 0#32)

/-- The machine over a control and a bypass word. -/
def bypassCase (c b : Word) : State := bench (regs c b 0#32 0#32 0#32 0#32 0#32 0#32 0#32)

/-- The machine over a PLL clock register of the peripheral PLL and a divider register. -/
def pathCase (pll1 mmc : Word) : State := bench (regs 0#32 0#32 0#32 0#32 0x1F#32 pll1 0#32 0#32 mmc)

/-- The machine over a system status word, with a schedule of the hardware. -/
def settleCase (w : Word) (hw : List (List HwMove)) : State :=
  { bench (regs 0#32 0#32 0#32 w 0#32 0#32 0#32 0#32 0#32) with hw := hw }

/-- The state after one step that takes the command word `cw`. -/
def after (s : State) (cw : CommandWord) : Option State :=
  match step { s with inputs := [.command cw none] } with
  | .next t => some t
  | _ => none

/-- The response, and the events, of a command that succeeds. -/
def answer (s : State) (cw : CommandWord) : Option (Option ResponseWord × List Event) :=
  (after s cw).map fun t => (t.resp, t.events)

/-- The status, and the events, of a command that fails: its value is free. -/
def failure (s : State) (cw : CommandWord) : Option (BitVec 3 × List Event) :=
  (after s cw).map fun t => (t.status, t.events)

/-- V2. -/
theorem test_resolve_path :
    answer quiet 0x1_00000006_00000000#68 =
      some (some 0x0_0BEBC200#35,
        [.rd 0x10000020#32 3#32, .rd 0x10000010#32 0x1F#32, .rd 0x10000010#32 0x1F#32, .rd 0x10000010#32 0x1F#32,
          .rd 0x10000020#32 3#32]) := by decide

/-- V21: the PLL stage overflows, and the divider is not read. -/
theorem test_resolve_overflow :
    failure
        { bench (regs 0#32 0#32 0#32 0#32 0x63#32 0#32 0#32 0#32 3#32) with osc := [⟨50000000#32, 0#32, 0#32, true⟩] }
        0x1_00000006_00000000#68 =
      some (2#3,
        [.rd 0x10000020#32 3#32, .rd 0x10000010#32 0x63#32, .rd 0x10000010#32 0x63#32, .rd 0x10000010#32 0x63#32]) := by
  decide

/-- V6, V7, V8, V10, V13, V18: the accumulator's width, the check, and the order of multiplication and division. -/
theorem test_pll_stages :
    ((after (pllCase 4294967295#32 0#32) 0x1_00000003_00000000#68).map State.resp) = some (some 0x0_FFFFFFFF#35) ∧
      ((after (pllCase 4294967295#32 1#32) 0x1_00000003_00000000#68).map State.status) = some 2#3 ∧
      ((after (pllCase 2147483648#32 1#32) 0x1_00000003_00000000#68).map State.status) = some 2#3 ∧
      ((after (pllCase 4294967295#32 0x00010001#32) 0x1_00000003_00000000#68).map State.resp) =
        some (some 0x0_FFFFFFFF#35) ∧
      ((after (pllCase 7#32 0x00010002#32) 0x1_00000003_00000000#68).map State.resp) = some (some 0x0_0000000A#35) ∧
      ((after (pllCase 3#32 0x003F0FFF#32) 0x1_00000003_00000000#68).map State.resp) = some (some 0x0_000000C0#35) := by
  decide

/-- V25: an unknown multiplexer value deeper on the path. -/
theorem test_resolve_unknown_mux :
    failure (pathCase 0x03000027#32 0x103#32) 0x1_00000006_00000000#68 =
      some (1#3, [.rd 0x10000020#32 0x103#32, .rd 0x10000014#32 0x03000027#32]) := by decide

/-- V50, V52: only the frequency is stored. -/
theorem test_oscSet :
    ((after quiet 0x2_00000000_02FAF080#68).map State.osc) =
      some [⟨50000000#32, 10000000#32, 50000000#32, true⟩, ⟨25000000#32, 10000000#32, 50000000#32, true⟩,
        ⟨0#32, 0#32, 100000000#32, false⟩] := by decide

/-- V53. -/
theorem test_oscSet_out_of_range : failure quiet 0x2_00000003_00000001#68 = some (1#3, []) := by decide

/-- V36, V37. -/
theorem test_pllLocked :
    answer quiet 0x3_00000000_00000000#68 = some (some 0x0_00000001#35, [.rd 0x10000008#32 0x41#32]) ∧
      answer quiet 0x3_00000001_00000000#68 = some (some 0x0_00000000#35, [.rd 0x10000008#32 0x41#32]) := by decide

/-- V39. -/
theorem test_pllLocked_out_of_range : failure quiet 0x3_FFFFFFFF_00000000#68 = some (1#3, []) := by decide

/-- V30 to V33: the truth table, with both reads made each time. -/
theorem test_pllBypassed :
    answer (bypassCase 0#32 0#32) 0x4_00000001_00000000#68 =
        some (some 0x0_00000000#35, [.rd 0x10000000#32 0#32, .rd 0x10000004#32 0#32]) ∧
      answer (bypassCase 0#32 2#32) 0x4_00000001_00000000#68 =
        some (some 0x0_00000001#35, [.rd 0x10000000#32 0#32, .rd 0x10000004#32 2#32]) ∧
      answer (bypassCase 1#32 0#32) 0x4_00000001_00000000#68 =
        some (some 0x0_00000001#35, [.rd 0x10000000#32 1#32, .rd 0x10000004#32 0#32]) ∧
      answer (bypassCase 1#32 2#32) 0x4_00000001_00000000#68 =
        some (some 0x0_00000001#35, [.rd 0x10000000#32 1#32, .rd 0x10000004#32 2#32]) := by decide

/-- V34. -/
theorem test_pllBypassed_own_bits :
    ((after (bypassCase 0xFFFFFFFE#32 0xFFFFFFFB#32) 0x4_00000002_00000000#68).map State.resp) =
      some (some 0x0_00000000#35) := by decide

/-- V41: the named latches are cleared, the others and the lock bits stay. -/
theorem test_statClear :
    ((after (statusCase 0x1FF#32) 0x5_00000015_00000000#68).map fun t => (t.resp, t.events, t.word 0x10000008#32)) =
      some (some 0x0_00000000#35, [.wr 0x10000008#32 0x15#32], 0x1EA#32) := by decide

/-- V45: one bad bit rejects the whole mask. -/
theorem test_statClear_rejected :
    ((after (statusCase 0x49#32) 0x5_00000048_00000000#68).map fun t => (t.status, t.events, t.word 0x10000008#32)) =
      some (1#3, [], 0x49#32) := by decide

/-- V71. -/
theorem test_clkEnable :
    ((after (gateCase 0xA0#32) 0x6_00000006_00000000#68).map fun t => (t.resp, t.events, t.word 0x1000001C#32)) =
      some (some 0x0_00000000#35, [.rd 0x1000001C#32 0xA0#32, .wr 0x1000001C#32 0xA1#32], 0xA1#32) := by decide

/-- V79: the host's bit 7, written between the two halves, is lost. -/
theorem test_clkEnable_lost_update :
    ((after { gateCase 0#32 with hw := [[], [.drive 0x1000001C#32 0x80#32]] } 0x6_00000006_00000000#68).map fun t =>
        t.word 0x1000001C#32) = some 1#32 := by decide

/-- V73. -/
theorem test_clkDisable :
    ((after (gateCase 3#32) 0x7_00000006_00000000#68).map fun t => (t.resp, t.events, t.word 0x1000001C#32)) =
      some (some 0x0_00000000#35, [.rd 0x1000001C#32 3#32, .wr 0x1000001C#32 2#32], 2#32) := by decide

/-- V77, V78: an oscillator has no gate; an id out of range. -/
theorem test_clkDisable_checks :
    failure quiet 0x7_00000000_00000000#68 = some (3#3, []) ∧
      failure quiet 0x7_FFFFFFFF_00000000#68 = some (1#3, []) := by decide

/-- V75, V76. -/
theorem test_clkEnabled :
    answer (gateCase 0xA1#32) 0x8_00000006_00000000#68 = some (some 0x0_00000001#35, [.rd 0x1000001C#32 0xA1#32]) ∧
      answer (gateCase 0xA0#32) 0x8_00000006_00000000#68 = some (some 0x0_00000000#35, [.rd 0x1000001C#32 0xA0#32]) := by
  decide

/-- V62: the busy bit clears before the last permitted read. -/
theorem test_settleWait_last_read :
    answer (settleCase 1#32 [[], [], [], [.busyFalls]]) 0x9_00000000_00000000#68 =
      some (some 0x0_00000000#35,
        [.rd 0x1000000C#32 1#32, .rd 0x1000000C#32 1#32, .rd 0x1000000C#32 1#32, .rd 0x1000000C#32 0#32]) := by decide

/-- V64: a fifth read is never made. -/
theorem test_settleWait_timeout :
    failure (settleCase 1#32 [[], [], [], [], [.busyFalls]]) 0x9_00000000_00000000#68 =
      some (4#3, [.rd 0x1000000C#32 1#32, .rd 0x1000000C#32 1#32, .rd 0x1000000C#32 1#32, .rd 0x1000000C#32 1#32]) := by
  decide

/-- V80, V81, V82: a reserved opcode, and the next command accepted. -/
theorem test_reserved :
    failure quiet 0x0_00000000_00000000#68 = some (1#3, []) ∧ failure quiet 0xA_00000000_00000000#68 = some (1#3, []) ∧
      failure quiet 0xF_FFFFFFFF_FFFFFFFF#68 = some (1#3, []) ∧
      ((after quiet 0x0_00000000_00000000#68).bind fun t => answer t 0x1_00000000_00000000#68) =
        some (some 0x0_017D7840#35, []) := by decide

/-- The state after one input of another kind. -/
def afterInput (s : State) (i : Input) : Option State :=
  match step { s with inputs := [i] } with
  | .next t => some t
  | _ => none

/-- P2, lines 3, 5, 7, 10: bypass, reconfigure, lift bypass, acquire lock. -/
theorem test_lifecycle :
    ((afterInput quiet (.hostWrite 0x10000004#32 1#32)).bind fun s3 =>
        (afterInput s3 (.hostWrite 0x10000010#32 0x3F#32)).bind fun s5 =>
          (afterInput s5 (.hostWrite 0x10000004#32 0#32)).bind fun s7 =>
            (afterInput s7 (.hardware (.lockAcquired .primary))).map fun s10 =>
              [s3.life.primary, s5.life.primary, s7.life.primary, s10.life.primary]) =
      some [.bypassed, .reconfiguring, .locking, .locked] := by decide

/-- 42_settle_and_lifecycle.md R183: a ratio write while LOCKED is refused. -/
theorem test_ratio_write_locked :
    (match step { quiet with inputs := [.hostWrite 0x10000010#32 0x3F#32] } with
      | .refused r => some r
      | _ => none) = some (.illegalRatioWrite .primary) := by decide

/-- 70_reset_and_hazards.md R242: reset between the two halves of CLK_ENABLE: no write, no response. -/
theorem test_reset_between_halves :
    (match step { gateCase 0#32 with inputs := [.command 0x6_00000006_00000000#68 (some 1)] } with
      | .next t => some (t.resp, t.events, t.word 0x1000001C#32, t.phase)
      | _ => none) = some (none, [.rd 0x1000001C#32 0#32], 0#32, .idle) := by decide

/-- 42_settle_and_lifecycle.md R184: the busy bit rises only after a write since it last fell. -/
theorem test_busy_envelope :
    let s := (settleCase 1#32 []).hwMove .busyFalls
    s.busy = false ∧ (s.hwMove .busyRises).busy = false ∧
      ((s.writeReg 0x10000020#32 5#32).hwMove .busyRises).busy = true := by decide

/-- 30_encoding.md R93: the text of operations and responses. -/
theorem test_text :
    (Instr.oscSet 0#32 25000000#32).assembly = "OSC_SET 0, 25000000" ∧ Instr.settleWait.assembly = "SETTLE_WAIT" ∧
      responseText 0#3 800000000#32 = "-> OK(800000000)" ∧ responseText 4#3 7#32 = "-> TIMEOUT" := by decide

/-! ## Witnesses: the hypotheses of each obligation that has any are met, clause by clause -/

/-- A malformed configuration: `SETTLE_BOUND` is 0. -/
def badConfig : Config := { Config.ref with settleBound := 0 }

/-- A state in RUN that has latched PLL_LOCKED 0. -/
def running : State := { quiet with phase := .run, opR := 3#4, aR := 0#32, inputs := [.reset] }

theorem witness_DecodeAndEncodeAgree :
    (opField 0x1_00000006_00000007#68).toNat = 1 ∧ (opField 0x8_00000006_00000007#68).toNat = 8 ∧
      (opField 0x2_00000001_016E3600#68).toNat = 2 := by decide

theorem witness_OpcodeAloneSelects : opField 0x1_00000006_00000000#68 = opField 0x1_FFFFFFFF_00000001#68 := by decide

theorem witness_UnusedFieldsIgnored : (1#4 ≠ 2#4) ∧ (0#4 = 0#4 ∨ 9#4 ≤ 0#4) ∧ (9#4 = 0#4 ∨ 9#4 ≤ 9#4) := by decide

theorem witness_StepRunsTheDecodedCommand :
    let s := { quiet with inputs := [.command 0x1_00000006_00000000#68 (some 2)] }
    s.cfg.wf = true ∧ s.phase = .idle ∧ s.inputs = .command 0x1_00000006_00000000#68 (some 2) :: [] := by decide

theorem witness_RunningBlockAcceptsNothing :
    ∃ t, running.cfg.wf = true ∧ running.phase = .run ∧ step running = .next t := ⟨_, by decide, rfl, rfl⟩

theorem witness_IdleBlockDoesNothing : quiet.cfg.wf = true ∧ quiet.phase = .idle ∧ quiet.inputs = [] := by decide

theorem witness_MalformedConfigurationIsRefused : { quiet with cfg := badConfig }.cfg.wf = false := by decide

theorem witness_EveryOperationResponds :
    ∃ t, quiet.resetIn = none ∧ exec (.pllLocked 0#32) quiet = .next t := ⟨_, rfl, rfl⟩

theorem witness_EveryOperationEnds : quiet.cfg.wf = true ∧ quiet.osc.length = quiet.cfg.nOsc := by decide

/-- Both ends of the range of oscillator indices. -/
theorem witness_OscSetStoresTheFrequency :
    quiet.resetIn = none ∧ (0#32).toNat < quiet.cfg.nOsc ∧ (2#32).toNat < quiet.cfg.nOsc := by decide

theorem witness_OverrideIsReadBack :
    ∃ t, quiet.resetIn = none ∧ quiet.osc.length = quiet.cfg.nOsc ∧ (2#32).toNat < quiet.cfg.nOsc ∧
      quiet.cfg.topo[(2#32).toNat]? = some (.osc (2#32).toNat) ∧ exec (.oscSet 2#32 5#32) quiet = .next t :=
  ⟨_, rfl, by decide, by decide, by decide, rfl⟩

theorem witness_PllLockedAnswersTheLockBit : quiet.resetIn = none := rfl

theorem witness_PllBypassedAnswersEitherBit : quiet.resetIn = none := rfl

/-- The four rows of the table. -/
theorem witness_BypassTruthTable :
    (Undisturbed (bypassCase 0#32 0#32) ∧ (bypassCase 0#32 0#32).safeMode = false ∧
        (bypassCase 0#32 0#32).bypassSelect .peripheral = false) ∧
      (Undisturbed (bypassCase 0#32 2#32) ∧ (bypassCase 0#32 2#32).safeMode = false ∧
        (bypassCase 0#32 2#32).bypassSelect .peripheral = true) ∧
      (Undisturbed (bypassCase 1#32 0#32) ∧ (bypassCase 1#32 0#32).safeMode = true ∧
        (bypassCase 1#32 0#32).bypassSelect .peripheral = false) ∧
      (Undisturbed (bypassCase 1#32 2#32) ∧ (bypassCase 1#32 2#32).safeMode = true ∧
        (bypassCase 1#32 2#32).bypassSelect .peripheral = true) := by unfold Undisturbed; decide

/-- The empty mask and the full one. -/
theorem witness_StatClearWritesTheMask :
    quiet.resetIn = none ∧ 0#32 &&& ~~~(allowedMask quiet.cfg) = 0#32 ∧ 0x3F#32 &&& ~~~(allowedMask quiet.cfg) = 0#32 := by
  decide

theorem witness_StatusClearClearsNamedLatches :
    quiet.cfg.wf = true ∧ (0 = quiet.cfg.achBit.get .primary ∨ 0 = quiet.cfg.lostBit.get .primary) ∧
      (5 = quiet.cfg.achBit.get .memory ∨ 5 = quiet.cfg.lostBit.get .memory) ∧
      0x10000000#32 ≠ quiet.cfg.statusAddr ∧ 0x10000000#32 ≠ quiet.cfg.statclrAddr := by decide

theorem witness_MaskAcceptedExactlyWithinLatches :
    maskAllowed Config.ref 0x3F#32 = true ∧ maskAllowed Config.ref 0x40#32 = false := by decide

/-- The first id out of range, the last in range without a gate, the one with a gate. -/
theorem witness_GateChecksPrecedeAccess :
    quiet.resetIn = none ∧ quiet.cfg.nNodes ≤ (7#32).toNat ∧
      ((5#32).toNat < quiet.cfg.nNodes ∧ gateOf quiet.cfg (5#32).toNat = none) ∧
      ((6#32).toNat < quiet.cfg.nNodes ∧ gateOf quiet.cfg (6#32).toNat = some ⟨0x1000001C#32, 0⟩) := by decide

theorem witness_ClkEnableSetsTheGateBit :
    quiet.resetIn = none ∧ (6#32).toNat < quiet.cfg.nNodes ∧
      gateOf quiet.cfg (6#32).toNat = some ⟨0x1000001C#32, 0⟩ ∧ isStatusReg quiet.cfg 0x1000001C#32 = false := by
  decide

theorem witness_ClkDisableClearsTheGateBit :
    quiet.resetIn = none ∧ (6#32).toNat < quiet.cfg.nNodes ∧
      gateOf quiet.cfg (6#32).toNat = some ⟨0x1000001C#32, 0⟩ ∧ isStatusReg quiet.cfg 0x1000001C#32 = false := by
  decide

theorem witness_ClkEnabledReadsTheGateBit :
    quiet.resetIn = none ∧ (6#32).toNat < quiet.cfg.nNodes ∧
      gateOf quiet.cfg (6#32).toNat = some ⟨0x1000001C#32, 0⟩ := by decide

theorem witness_ChangeBetweenHalvesIsLost :
    let s := { gateCase 0#32 with hw := [[], [.drive 0x1000001C#32 0x80#32]] }
    s.resetIn = none ∧ (6#32).toNat < s.cfg.nNodes ∧ gateOf s.cfg (6#32).toNat = some ⟨0x1000001C#32, 0⟩ ∧
      isStatusReg s.cfg 0x1000001C#32 = false ∧ s.hw = [] :: [.drive 0x1000001C#32 0x80#32] :: [] := by decide

theorem witness_WritingOperationsAreIdempotent :
    Undisturbed quiet ∧ quiet.cfg.wf = true ∧ oneClass quiet.cfg = true ∧
      ∃ t u, exec (.clkEnable 6#32) quiet = .next t ∧ exec (.clkEnable 6#32) t = .next u :=
  ⟨⟨rfl, rfl⟩, by decide, by decide, _, _, rfl, rfl⟩

/-- Success at the first permitted read and at the last. -/
theorem witness_SettleSucceedsAtFirstClearRead :
    let s := settleCase 1#32 [[], [], [], [.busyFalls]]
    let s0 := { s with iter := 0#32 }
    let u := settleCase 0#32 []
    let u0 := { u with iter := 0#32 }
    (s.resetIn = none ∧ s.cfg.settleBound < 2 ^ 32 ∧ 3 < s.cfg.settleBound ∧
        (∀ j, j < 3 → nextReadBusy (afterReads j s0) = true) ∧ nextReadBusy (afterReads 3 s0) = false) ∧
      (u.resetIn = none ∧ u.cfg.settleBound < 2 ^ 32 ∧ 0 < u.cfg.settleBound ∧
        (∀ j, j < 0 → nextReadBusy (afterReads j u0) = true) ∧ nextReadBusy (afterReads 0 u0) = false) := by decide

theorem witness_SettleTimesOutAtTheBound :
    let s := settleCase 1#32 []
    let s0 := { s with iter := 0#32 }
    s.resetIn = none ∧ ∀ j, j < s.cfg.settleBound → nextReadBusy (afterReads j s0) = true := by decide

theorem witness_SettleIsBounded : quiet.resetIn = none ∧ 1 ≤ quiet.cfg.settleBound := by decide

/-- The ends of both ranges of reserved opcodes. -/
theorem witness_ReservedOpcodesAnswerBadArgument :
    quiet.resetIn = none ∧ (0#4 = 0#4 ∨ 10#4 ≤ 0#4) ∧ (10#4 = 0#4 ∨ 10#4 ≤ 10#4) ∧ (15#4 = 0#4 ∨ 10#4 ≤ 15#4) := by
  decide

theorem witness_CommandWordFailuresAreImmediate :
    quiet.resetIn = none ∧ commandFailure quiet.cfg (.resolve 7#32) = some .badArgument ∧
      commandFailure quiet.cfg (.oscSet 3#32 0#32) = some .badArgument ∧
      commandFailure quiet.cfg (.statClear 0x40#32) = some .badArgument ∧
      commandFailure quiet.cfg (.clkEnable 5#32) = some .unsupportedCapability := by decide

theorem witness_FailuresLeaveNoPartialEffect :
    ∃ t, quiet.resetIn = none ∧ exec (.clkEnable 7#32) quiet = .next t ∧ t.status ≠ 0#3 :=
  ⟨_, rfl, rfl, by decide⟩

theorem witness_FailureKindsByOperation :
    (∃ t, (pllCase 4294967295#32 1#32).resetIn = none ∧ exec (.resolve 3#32) (pllCase 4294967295#32 1#32) = .next t ∧
        t.status = 2#3) ∧
      (∃ t, quiet.resetIn = none ∧ exec (.clkDisable 0#32) quiet = .next t ∧ t.status = 3#3) ∧
      ∃ t, (settleCase 1#32 []).resetIn = none ∧ exec .settleWait (settleCase 1#32 []) = .next t ∧ t.status = 4#3 :=
  ⟨⟨_, rfl, rfl, by decide⟩, ⟨_, rfl, rfl, by decide⟩, _, rfl, rfl, by decide⟩

theorem witness_ResolveOfOscillatorReadsTheTable :
    quiet.resetIn = none ∧ quiet.cfg.topo[(2#32).toNat]? = some (.osc 2) ∧
      quiet.osc[2]? = some ⟨0#32, 0#32, 100000000#32, false⟩ := by decide

/-- A frequency and a failure. -/
theorem witness_ResolveIsExact :
    (Undisturbed quiet ∧ quiet.cfg.wf = true ∧ (6#32).toNat < quiet.cfg.nNodes ∧
        exactResolve quiet.cfg quiet.osc quiet.readReg (quiet.cfg.maxDepth + 1) (6#32).toNat =
          some (.ok 200000000)) ∧
      let s := pathCase 0x03000027#32 0x103#32
      Undisturbed s ∧ s.cfg.wf = true ∧ (6#32).toNat < s.cfg.nNodes ∧
        exactResolve s.cfg s.osc s.readReg (s.cfg.maxDepth + 1) (6#32).toNat = some (.error .badArgument) :=
  ⟨⟨⟨rfl, rfl⟩, by decide, by decide, rfl⟩, ⟨rfl, rfl⟩, by decide, by decide, rfl⟩

theorem witness_WalksAlwaysEnd :
    Config.ref.wf = true ∧ quiet.osc.length = Config.ref.nOsc ∧ 6 < Config.ref.nNodes := by decide

theorem witness_ResolveIsBounded :
    quiet.resetIn = none ∧ quiet.cfg.wf = true ∧ quiet.osc.length = quiet.cfg.nOsc ∧
      (6#32).toNat < quiet.cfg.nNodes := by decide

/-- The requested node a derived clock, and a PLL. -/
theorem witness_UnknownMultiplexerFailsAtOnce :
    (let s := pathCase 0#32 0x303#32
      ∃ node, s.resetIn = none ∧ s.cfg.topo[(6#32).toNat]? = some node ∧
        ((∃ p menu numer denom, node = .pll p ⟨0x10000020#32, 8, 2⟩ menu numer denom) ∨
          ∃ menu div gate, node = .derived ⟨0x10000020#32, 8, 2⟩ menu div gate) ∧
        menuLookup node.menu (extract (s.pollHw.readReg 0x10000020#32) ⟨0x10000020#32, 8, 2⟩).toNat = none) ∧
      let s := pathCase 0x03000000#32 0#32
      ∃ node, s.resetIn = none ∧ s.cfg.topo[(4#32).toNat]? = some node ∧
        ((∃ p menu numer denom, node = .pll p ⟨0x10000014#32, 24, 2⟩ menu numer denom) ∨
          ∃ menu div gate, node = .derived ⟨0x10000014#32, 24, 2⟩ menu div gate) ∧
        menuLookup node.menu (extract (s.pollHw.readReg 0x10000014#32) ⟨0x10000014#32, 24, 2⟩).toNat = none :=
  ⟨⟨_, rfl, rfl, .inr ⟨_, _, _, rfl⟩, rfl⟩, _, rfl, rfl, .inl ⟨_, _, _, _, rfl⟩, rfl⟩

/-- The largest quotient that fits, and the smallest that does not, at the ends of both fields. -/
theorem witness_PllStageIsExact :
    ((0#32).toNat ≤ 4095 ∧ (0#32).toNat ≤ 63 ∧
        (4294967295#32).toNat * ((0#32).toNat + 1) / ((0#32).toNat + 1) < 2 ^ 32) ∧
      ((1#32).toNat ≤ 4095 ∧ (63#32).toNat ≤ 63 ∧ (4095#32).toNat ≤ 4095 ∧
        2 ^ 32 ≤ (2147483648#32).toNat * ((1#32).toNat + 1) / ((0#32).toNat + 1)) := by decide

theorem witness_StagesDivideOnce :
    ∃ t u, (2#32).toNat ≤ 4095 ∧ (1#32).toNat ≤ 63 ∧ pllStage 7#32 2#32 1#32 quiet = .ok 10#32 t ∧
      derivedStage 10#32 2#32 t = .ok 3#32 u := ⟨_, _, by decide, by decide, rfl, rfl⟩

/-- Every root unclocked. -/
def unclocked : State := { quiet with osc := quiet.osc.map fun o => { o with freq := 0#32 } }

/-- The walk from the requested node comes to the oscillator of 0 Hz, through a divider and at once, while the others
are 25 MHz; and every root unclocked. -/
theorem witness_ZeroRootsResolveToZero :
    (let s := pathCase 0#32 0x201#32;
      s.resetIn = none ∧ reachedRoot (s.cfg.maxDepth + 1) (6#32).toNat s = some 2 ∧
        reachedRoot (s.cfg.maxDepth + 1) (2#32).toNat s = some 2 ∧
        s.osc = [⟨25000000#32, 10000000#32, 50000000#32, true⟩, ⟨25000000#32, 10000000#32, 50000000#32, true⟩,
          ⟨0#32, 0#32, 100000000#32, false⟩]) ∧
      ∃ t, unclocked.resetIn = none ∧ (∀ o ∈ unclocked.osc, o.freq = 0#32) ∧ exec (.resolve 6#32) unclocked = .next t ∧
        t.status = 0#3 := ⟨by decide, _, rfl, by decide, rfl, by decide⟩

/-- The state `quiet` with other gate and lock bits. -/
def ungated : State := bench (regs 0#32 0#32 0#32 0#32 0x1F#32 0#32 0#32 0#32 3#32)

theorem test_ungated_ratios :
    ∀ node ∈ Config.ref.topo, ∀ x ∈ ratioAddresses node, quiet.readReg x = ungated.readReg x := by
  intro node hn x hx
  simp only [Config.ref, List.mem_cons, List.not_mem_nil, or_false] at hn
  rcases hn with rfl | rfl | rfl | rfl | rfl | rfl | rfl <;>
    simp only [ratioAddresses, refPll, List.mem_cons, List.not_mem_nil, or_false, or_self] at hx <;> subst hx <;> rfl

theorem witness_ResolveReadsNothingElse :
    ∃ t1 t2, Undisturbed quiet ∧ Undisturbed ungated ∧ quiet.cfg = ungated.cfg ∧
      quiet.osc.map (fun o => o.freq) = ungated.osc.map (fun o => o.freq) ∧
      (∀ node ∈ quiet.cfg.topo, ∀ x ∈ ratioAddresses node, quiet.readReg x = ungated.readReg x) ∧
      exec (.resolve 6#32) quiet = .next t1 ∧ exec (.resolve 6#32) ungated = .next t2 ∧ t1.status = 0#3 :=
  ⟨_, _, ⟨rfl, rfl⟩, ⟨rfl, rfl⟩, rfl, rfl, test_ungated_ratios, rfl, rfl, by decide⟩

theorem witness_OnlyOscSetChangesTheTable :
    ∃ t, quiet.resetIn = none ∧ exec (.resolve 6#32) quiet = .next t ∧
      (∀ a b, Instr.resolve 6#32 ≠ .oscSet a b) ∧ OscConstants quiet := ⟨_, rfl, rfl, by simp, rfl⟩

theorem witness_OnlyThreeOperationsWrite :
    ∃ t, quiet.resetIn = none ∧ exec .settleWait quiet = .next t ∧
      (∀ a, Instr.settleWait ≠ .statClear a ∧ Instr.settleWait ≠ .clkEnable a ∧ Instr.settleWait ≠ .clkDisable a) ∧
      quiet.hw = [] := ⟨_, rfl, rfl, by simp, rfl⟩

theorem witness_OperationsDoNotMoveTheLifecycle :
    ∃ t, quiet.hw = [] ∧ exec (.statClear 0x3F#32) quiet = .next t := ⟨_, rfl, rfl⟩

theorem witness_TransfersStayInTheAddressSet :
    ∃ t, exec (.clkEnable 6#32) { quiet with resetIn := some 1 } = .next t := ⟨_, rfl⟩

/-- Two machines with different lifecycles and schedules whose reads were answered alike. -/
theorem witness_AnswersDetermineTheOutcome :
    let s := { settleCase 1#32 [[], [.busyFalls]] with life := ⟨.bypassed, .locked, .locked⟩ }
    let u := settleCase 1#32 [[], [.drive 0x1000000C#32 0#32]]
    ∃ t1 t2, s.resetIn = none ∧ u.resetIn = none ∧ s.cfg = u.cfg ∧ s.osc = u.osc ∧ exec .settleWait s = .next t1 ∧
      exec .settleWait u = .next t2 ∧ Issued s t1 [.rd 0x1000000C#32 1#32, .rd 0x1000000C#32 0#32] ∧
      Issued u t2 [.rd 0x1000000C#32 1#32, .rd 0x1000000C#32 0#32] ∧ t1.status = 0#3 :=
  ⟨_, _, rfl, rfl, rfl, rfl, rfl, rfl, by unfold Issued; decide, by unfold Issued; decide, by decide⟩

theorem witness_TransientRegistersDoNotMatter :
    { quiet with acc := 5#64, iter := 3#32 }.lasting = quiet.lasting ∧ { quiet with acc := 5#64, iter := 3#32 } ≠ quiet :=
  ⟨rfl, fun h => absurd (congrArg State.iter h) (by decide)⟩

theorem witness_StepKeepsTheInvariant :
    let s := { quiet with inputs := [.command 0x6_00000006_00000000#68 none] }
    Invariant s ∧ ∃ t, step s = .next t := ⟨⟨by decide, rfl, by decide⟩, _, rfl⟩

/-- The primary PLL LOCKED, the others LOCKING; then the host writes the bypass register. -/
def agreeing : State :=
  { quiet with
    life := ⟨.locked, .locking, .locking⟩, inputs := [.hostWrite 0x10000004#32 1#32],
    hw := [[.lockAcquired .peripheral, .busyRises]] }

theorem witness_StepKeepsTheLifecycleInvariant :
    oneClass agreeing.cfg = true ∧ gatesApart agreeing.cfg = true ∧
      (∀ ms ∈ agreeing.hw, ∀ m ∈ ms, isLifecycleMove m = true) ∧
      (∀ m, agreeing.inputs.head? = some (.hardware m) → isLifecycleMove m = true) ∧
      (∀ p, LifeAgrees agreeing p) ∧ BusyWithinEnvelope agreeing ∧ ∃ t, step agreeing = .next t :=
  ⟨by decide, by decide, by decide, by simp [agreeing], by intro p; unfold LifeAgrees; cases p <;> decide,
    by unfold BusyWithinEnvelope; decide, _, rfl⟩

theorem witness_ResetLoadsTheDefaults :
    let s := { unclocked with inputs := [.reset] }
    s.cfg.wf = true ∧ s.phase = .idle ∧ s.inputs = .reset :: [] := by decide

/-- Reset before the first event, after the last, and between the two halves of CLK_ENABLE; the same operation without
the reset. -/
theorem witness_ResetEndsAnOperationSilently :
    (∃ t u v, { quiet with resetIn := some 0 }.resetIn = some 0 ∧
      exec (.pllLocked 0#32) { quiet with resetIn := some 0 } = .next t ∧ { quiet with resetIn := some 1 }.resetIn = some 1 ∧
      exec (.pllLocked 0#32) { quiet with resetIn := some 1 } = .next u ∧
      exec (.pllLocked 0#32) { { quiet with resetIn := some 1 } with resetIn := none } = .next v ∧
      Issued quiet v [.rd 0x10000008#32 0x41#32]) ∧
      let s := { gateCase 0#32 with resetIn := some 1 }
      s.hw = [] ∧ s.resetIn = some 1 ∧ (6#32).toNat < s.cfg.nNodes ∧
        gateOf s.cfg (6#32).toNat = some ⟨0x1000001C#32, 0⟩ :=
  ⟨⟨_, _, _, rfl, rfl, rfl, rfl, rfl, by unfold Issued; decide⟩, by decide⟩

/-- Where the bit may rise, and where no write came since it last fell; an operation with no move of the hardware
scheduled. -/
theorem witness_BusyBitIsTheHardwares :
    (quiet.cfg.wf = true ∧ oneClass quiet.cfg = true ∧ quiet.disturbed = true ∧
      { quiet with disturbed := false }.disturbed = false) ∧
      0x10000008#32 ≠ quiet.cfg.statAddr ∧ 1 ≠ quiet.cfg.busyBit ∧
      ∃ t, quiet.hw = [] ∧ exec (.clkEnable 6#32) quiet = .next t := ⟨by decide, by decide, by decide, _, rfl, rfl⟩

theorem witness_LockMovesLatchTheirFlags :
    agreeing.cfg.wf = true ∧ agreeing.life.get .peripheral = .locking ∧ agreeing.life.get .primary = .locked := by
  decide

/-- The host writes that each clause speaks of: bypass asserted, bypass lifted, a ratio change, none of them. -/
theorem witness_HostWritesMoveTheLifecycle :
    (∃ t, quiet.hostWrite 0x10000004#32 1#32 = .next t ∧ quiet.bypassSelect .primary = false ∧
        (quiet.writeReg 0x10000004#32 1#32).bypassSelect .primary = true) ∧
      (∃ t, (bypassCase 0#32 1#32).hostWrite 0x10000004#32 0#32 = .next t ∧ (bypassCase 0#32 1#32).byp .primary = true ∧
        ((bypassCase 0#32 1#32).writeReg 0x10000004#32 0#32).byp .primary = false) ∧
      (let s := { bypassCase 0#32 1#32 with life := ⟨.bypassed, .locked, .locked⟩ }
        ∃ t, s.hostWrite 0x10000010#32 5#32 = .next t ∧ s.ratio .primary ≠ (s.writeReg 0x10000010#32 5#32).ratio .primary) ∧
      ∃ t, quiet.hostWrite 0x10000020#32 5#32 = .next t :=
  ⟨⟨_, rfl, by decide, by decide⟩, ⟨_, rfl, by decide, by decide⟩, ⟨_, rfl, by decide⟩, _, rfl⟩

theorem witness_RatioWriteWhileLockedIsRefused :
    (0x10000010#32).toNat % 4 = 0 ∧ (quiet.life.get .primary = .locking ∨ quiet.life.get .primary = .locked) ∧
      quiet.ratio .primary ≠ (quiet.writeReg 0x10000010#32 5#32).ratio .primary := by decide

/-- The three cases, the first with the lock bit 1 too. -/
theorem witness_PllStateAnswersTheObservation :
    (let s := bench (regs 0#32 1#32 0x40#32 0#32 0#32 0#32 0#32 0#32 0#32);
      Undisturbed s ∧ s.bypassSelect .primary = true ∧ s.lck .primary = true) ∧
      (Undisturbed quiet ∧ quiet.safeMode = false ∧ quiet.bypassSelect .primary = false ∧ quiet.lck .primary = true) ∧
      (quiet.safeMode = false ∧ quiet.bypassSelect .peripheral = false ∧ quiet.lck .peripheral = false) := by
  unfold Undisturbed; decide

theorem witness_ClearAllClearsEveryLatch : Undisturbed quiet ∧ quiet.cfg.wf = true := ⟨⟨rfl, rfl⟩, by decide⟩

theorem witness_WaitLockPollsTheLockBit : Undisturbed quiet := ⟨rfl, rfl⟩

/-- A read; a write that completes, of a plain register, of the latches, and one that lifts bypass. -/
theorem witness_HostAccessesReachTheRegisters :
    (quiet.cfg.wf = true ∧ oneClass quiet.cfg = true ∧ (0x10000020#32).toNat % 4 = 0 ∧
      isStatusReg quiet.cfg 0x10000020#32 = false ∧
      (∀ p, quiet.ratio p = (quiet.writeReg 0x10000020#32 5#32).ratio p) ∧
      quiet.safeMode = false ∧ (quiet.writeReg 0x10000020#32 5#32).safeMode = false) ∧
      (∃ t, quiet.hostWrite 0x10000020#32 5#32 = .next t) ∧ (∃ t, quiet.hostWrite quiet.cfg.statclrAddr 0x3F#32 = .next t) ∧
      ∃ t, (bypassCase 0#32 1#32).hostWrite 0x10000004#32 0#32 = .next t ∧ (bypassCase 0#32 1#32).byp .primary = true ∧
        ((bypassCase 0#32 1#32).writeReg 0x10000004#32 0#32).byp .primary = false :=
  ⟨⟨by decide, by decide, by decide, by decide, by intro p; cases p <;> decide, by decide, by decide⟩, ⟨_, rfl⟩,
    ⟨_, rfl⟩, _, rfl, by decide, by decide⟩

end Sys2Proof.Tests
end

section
/-!
SUPPORT. What a well-formed configuration gives (10_state.md R34): each condition by itself, the alignment of every
register address of the block, and the step of the machine taken apart.
-/

namespace Sys2Proof.Machine

/-- Each condition of a well-formed configuration holds. -/
theorem condition_of_wf {c : Config} {b : Bool} (h : c.wf = true) (hb : b ∈ c.conditions) : b = true :=
  List.all_eq_true.mp h b hb

theorem aligned_iff {a : Word} : aligned a = true ↔ a.toNat % 4 = 0 := by simp [aligned]

theorem addr_aligned_of_field_wf {f : Field} (h : f.wf = true) : f.addr.toNat % 4 = 0 := by
  simp only [Field.wf, Bool.and_eq_true] at h
  exact aligned_iff.mp h.1.1

theorem addr_aligned_of_gate_wf {g : Gate} (h : g.wf = true) : g.addr.toNat % 4 = 0 := by
  simp only [Gate.wf, Bool.and_eq_true] at h
  exact aligned_iff.mp h.1

/-- The registers of a node with well-formed descriptors are aligned (R31, R32). -/
theorem aligned_of_mem_nodeAddresses {node : Node} {a : Word} (h : node.wf = true) (ha : a ∈ nodeAddresses node) :
    a.toNat % 4 = 0 := by
  cases node with
  | osc i => simp [nodeAddresses, ratioAddresses, nodeGate] at ha
  | pll p mux menu numer denom =>
    simp only [Node.wf, Bool.and_eq_true] at h
    obtain ⟨⟨⟨⟨hm, hn⟩, hd⟩, -⟩, -⟩ := h
    simp only [nodeAddresses, ratioAddresses, nodeGate, Option.map_none, Option.toList_none, List.append_nil,
      List.mem_cons, List.not_mem_nil, or_false] at ha
    rcases ha with rfl | rfl | rfl
    · exact addr_aligned_of_field_wf hm
    · exact addr_aligned_of_field_wf hn
    · exact addr_aligned_of_field_wf hd
  | derived mux menu div gate =>
    simp only [Node.wf, Bool.and_eq_true] at h
    obtain ⟨⟨hm, hd⟩, hg⟩ := h
    simp only [nodeAddresses, ratioAddresses, nodeGate, List.mem_append, List.mem_cons, List.not_mem_nil, or_false,
      Option.mem_toList, Option.map_eq_some_iff] at ha
    rcases ha with (rfl | rfl) | ⟨g, rfl, rfl⟩
    · exact addr_aligned_of_field_wf hm
    · exact addr_aligned_of_field_wf hd
    · exact addr_aligned_of_gate_wf hg

/-- Every register the block issues a transfer to is aligned (20_memory.md R51, R59). -/
theorem aligned_of_mem_blockAddresses {c : Config} {a : Word} (h : c.wf = true) (ha : a ∈ blockAddresses c) :
    a.toNat % 4 = 0 := by
  have hreg : c.regmapAligned = true := condition_of_wf h (by simp [Config.conditions])
  have hdesc : c.descriptorsWf = true := condition_of_wf h (by simp [Config.conditions])
  simp only [Config.regmapAligned, List.all_cons, List.all_nil, Bool.and_eq_true, aligned_iff] at hreg
  obtain ⟨-, hctrl, hbyp, hstatus, hclr, hstat, -⟩ := hreg
  simp only [blockAddresses, plainAddresses, List.mem_append, List.mem_cons, List.not_mem_nil, or_false,
    List.mem_flatMap] at ha
  rcases ha with (rfl | rfl | rfl) | (rfl | rfl) | ⟨node, hnode, ha⟩
  · exact hstatus
  · exact hclr
  · exact hstat
  · exact hctrl
  · exact hbyp
  · exact aligned_of_mem_nodeAddresses (List.all_eq_true.mp hdesc node hnode) ha

/-- The step under a configuration that fails a condition (60_exceptions.md R219 (a)). -/
theorem step_of_not_wf {s : State} (h : s.cfg.wf = false) : step s = .refused .malformedConfiguration := by
  simp [step, State.guardedAdvance, h]

/-- A step that completes was taken under a well-formed configuration: it ran the accepted operation, had nothing to do,
or took the oldest input. -/
theorem step_next {s t : State} (h : step s = .next t) :
    s.cfg.wf = true ∧
      ((s.phase = .run ∧ exec s.latched s = .next t) ∨ (s.phase = .idle ∧ s.inputs = [] ∧ t = s) ∨
        ∃ i rest, s.phase = .idle ∧ s.inputs = i :: rest ∧ { s with inputs := rest }.takeInput i = .next t) := by
  cases hwf : s.cfg.wf with
  | false => rw [step_of_not_wf hwf] at h; cases h
  | true =>
    refine ⟨rfl, ?_⟩
    simp only [step, State.guardedAdvance, hwf, if_true, State.advance] at h
    split at h
    next hp => exact .inl ⟨hp, h⟩
    next hp =>
      split at h
      next hi => cases h; exact .inr (.inl ⟨hp, hi, rfl⟩)
      next i rest hi => exact .inr (.inr ⟨i, rest, hp, hi, h⟩)

/-- Settles O8: the check of R34 comes before anything else of a step. -/
theorem malformedConfigurationIsRefused : Obligations.MalformedConfigurationIsRefused := fun _ h => step_of_not_wf h

end Sys2Proof.Machine
end

section
/-!
SUPPORT. The oscillator table and its constants (10_state.md R20, R22): what each operation does to them (O42).
-/

namespace Sys2Proof.Machine

theorem OscConstants.congr {s t : State} (h : OscConstants s) (hc : t.cfg = s.cfg) (ho : t.osc = s.osc) :
    OscConstants t := by
  unfold OscConstants at h ⊢
  rw [ho, hc]
  exact h

/-- After reset the table is the default one, constants included (70_reset_and_hazards.md R241). -/
theorem OscConstants.blockReset (s : State) : OscConstants s.blockReset := rfl

/-- OSC_SET replaces a frequency, never a constant (40_resolver.md R125). -/
theorem OscConstants.setOscFreq {s : State} (h : OscConstants s) (n : Nat) (f : Word) :
    OscConstants (s.setOscFreq n f) := by
  refine Eq.trans (List.ext_getElem? fun k => ?_) h
  simp only [State.setOscFreq_osc, List.getElem?_map, List.getElem?_modify]
  cases s.osc[k]? with
  | none => rfl
  | some o => by_cases hk : n = k <;> simp [hk]

/-- The basic updates of every operation keep the constants of the table. -/
theorem stable_oscConstants (c : Config) (i : Instr) : Stable c i fun u => u.cfg = c ∧ OscConstants u where
  cfg _ h := h.1
  poll s h := ⟨by simp [h.1], h.2.congr (by simp) (by simp)⟩
  countdown _ _ _ h := h
  read _ _ _ h := h
  write s a v _ _ h := ⟨by simp [h.1], h.2.congr (by simp) (by simp)⟩
  rmw _ _ h := h
  acc _ _ h := h
  sp _ _ h := h
  stk _ _ h := h
  iter _ _ h := h
  osc _ _ b n _ h := ⟨h.1, h.2.setOscFreq n b⟩

/-- The basic updates of every operation but OSC_SET keep the whole table, with no reset coming. -/
theorem stable_osc (c : Config) (osc : List Oscillator) {i : Instr} (hi : ∀ a b, i ≠ .oscSet a b) :
    Stable c i fun u => u.resetIn = none ∧ u.cfg = c ∧ u.osc = osc where
  cfg _ h := h.2.1
  poll s h := by simpa using h
  countdown s k hk h := by simp [h.1] at hk
  read _ _ _ h := h
  write s a v _ _ h := by simpa using h
  rmw _ _ h := h
  acc _ _ h := h
  sp _ _ h := h
  stk _ _ h := h
  iter _ _ h := h
  osc _ a b _ he _ := absurd he (hi a b)

/-- No operation changes the constants of the table, reset or not. -/
theorem exec_keeps_oscConstants {i : Instr} {s t : State} (h : OscConstants s) (e : exec i s = .next t) :
    OscConstants t := by
  obtain ⟨u, ⟨-, hu⟩, ⟨-, v, rfl⟩ | ⟨-, k, rfl⟩ | ⟨-, rfl⟩⟩ := (stable_oscConstants s.cfg i).exec ⟨rfl, h⟩ e
  · exact hu
  · exact hu
  · exact .blockReset u

/-- No operation but OSC_SET changes the table, with no reset coming. -/
theorem exec_keeps_osc {i : Instr} {s t : State} (hi : ∀ a b, i ≠ .oscSet a b) (hr : s.resetIn = none)
    (e : exec i s = .next t) : t.osc = s.osc := by
  obtain ⟨u, ⟨hn, -, hu⟩, ⟨-, v, rfl⟩ | ⟨-, k, rfl⟩ | ⟨hne, -⟩⟩ := (stable_osc s.cfg s.osc hi).exec ⟨hr, rfl, rfl⟩ e
  · exact hu
  · exact hu
  · exact absurd hn hne

/-- Settles O42: the table, and its constants, are kept by every basic update that the operations are made of. -/
theorem onlyOscSetChangesTheTable : Obligations.OnlyOscSetChangesTheTable := fun _ _ _ hr e =>
  ⟨fun hi => exec_keeps_osc hi hr e, fun h => exec_keeps_oscConstants h e⟩

end Sys2Proof.Machine
end

section
/-!
SUPPORT. The invariant of the machine at launch and through every step (O49, O48).
-/

namespace Sys2Proof.Machine

/-- The block's reset has the invariant where the register space is in canonical form. -/
theorem invariant_blockReset {s : State} (h : s.mem.wf = true) : Invariant s.blockReset :=
  ⟨h, .blockReset s, by simp⟩

/-- A launch has the invariant, under every configuration. -/
theorem invariant_launch (c : Config) : Invariant (State.launch c) := ⟨Memory.wf_launch c, rfl, Nat.zero_le 4⟩

/-- Settles O49: REF is one configuration to launch in, and passes every condition of R34. -/
theorem resetHasTheInvariant : Obligations.ResetHasTheInvariant := ⟨invariant_launch Config.ref, by decide⟩

theorem Failure.code_le (k : Failure) : k.code.toNat ≤ 4 := by cases k <;> decide

/-- The invariant needs only the canonical form again where table and status are left alone. -/
theorem Invariant.congr {s t : State} (h : Invariant s) (hm : t.mem.wf = true) (hc : t.cfg = s.cfg)
    (ho : t.osc = s.osc) (hs : t.status = s.status) : Invariant t :=
  ⟨hm, h.2.1.congr hc ho, hs ▸ h.2.2⟩

/-- The basic updates that operations are made of keep the invariant: the registers they reach are aligned. -/
theorem stable_invariant {c : Config} (hwf : c.wf = true) (i : Instr) :
    Stable c i fun u => u.cfg = c ∧ Invariant u where
  cfg _ h := h.1
  poll s := by
    rintro ⟨rfl, h⟩
    have hs := aligned_of_mem_blockAddresses hwf (statusAddr_mem s.cfg)
    have hb := aligned_of_mem_blockAddresses hwf (statAddr_mem s.cfg)
    exact ⟨by simp, h.congr (s.wf_pollHw h.1 hs hb) (by simp) (by simp) (by simp)⟩
  countdown _ _ _ h := h
  read _ _ _ h := h
  write s a v _ ha := by
    rintro ⟨rfl, h⟩
    have hs := aligned_of_mem_blockAddresses hwf (statusAddr_mem s.cfg)
    have hw := s.wf_writeReg a v h.1 (aligned_of_mem_blockAddresses hwf ha) hs
    exact ⟨by simp, h.congr hw (by simp) (by simp) (by simp)⟩
  rmw _ _ h := h
  acc _ _ h := h
  sp _ _ h := h
  stk _ _ h := h
  iter _ _ h := h
  osc _ _ b n _ h := ⟨h.1, h.2.1, h.2.2.1.setOscFreq n b, h.2.2.2⟩

/-- Every operation keeps the invariant and the static tables: it ends with a code of R201, or in a reset. -/
theorem exec_keeps_invariant {i : Instr} {s t : State} (hwf : s.cfg.wf = true) (h : Invariant s)
    (e : exec i s = .next t) : Invariant t ∧ t.cfg = s.cfg := by
  obtain ⟨u, ⟨hc, hm, ho, -⟩, ⟨-, v, rfl⟩ | ⟨-, k, rfl⟩ | ⟨-, rfl⟩⟩ := (stable_invariant hwf i).exec ⟨rfl, h⟩ e
  · exact ⟨⟨hm, ho, Nat.zero_le 4⟩, hc⟩
  · exact ⟨⟨hm, ho, k.code_le⟩, hc⟩
  · exact ⟨invariant_blockReset hm, hc⟩

/-- A move of the hardware keeps the invariant. -/
theorem hwMove_keeps_invariant {s : State} (hwf : s.cfg.wf = true) (h : Invariant s) (m : HwMove) :
    Invariant (s.hwMove m) :=
  h.congr
    (s.wf_hwMove m h.1 (aligned_of_mem_blockAddresses hwf (statusAddr_mem _))
      (aligned_of_mem_blockAddresses hwf (statAddr_mem _)))
    (by simp) (by simp) (by simp)

/-- What a host write does to one PLL keeps the invariant: of the register space it changes a status bit at most. -/
theorem hostMovesPll_keeps_invariant {s t before after : State} {p : PllId}
    (hwf : s.cfg.wf = true) (h : Invariant s) (e : s.hostMovesPll before after p = .next t) :
    Invariant t ∧ t.cfg = s.cfg := by
  have bit (l : Life) (b : Nat) (v : Bool) : ((s.setLife p l).setStatusBit b v).mem.wf = true :=
    State.wf_setWord _ _ _ h.1 (aligned_of_mem_blockAddresses hwf (statusAddr_mem _))
  rcases s.hostMovesPll_cases before after p with ⟨-, he⟩ | ⟨l, -, ⟨-, he⟩ | ⟨-, -, he⟩ | ⟨-, -, he⟩⟩ <;>
    rw [he] at e <;> cases e
  · exact ⟨h.congr (bit _ _ _) rfl rfl rfl, rfl⟩
  · exact ⟨h.congr (bit _ _ _) rfl rfl rfl, rfl⟩
  · exact ⟨h, rfl⟩

/-- A direct host write that completes keeps the invariant. -/
theorem hostWrite_keeps_invariant {s t : State} {addr v : Word} (hwf : s.cfg.wf = true) (h : Invariant s)
    (e : s.hostWrite addr v = .next t) : Invariant t ∧ t.cfg = s.cfg := by
  obtain ⟨ha, t1, t2, e1, e2, e3⟩ := State.hostWrite_next e
  have hs := aligned_of_mem_blockAddresses hwf (statusAddr_mem s.cfg)
  have hw : Invariant (s.writeReg addr v) := h.congr (s.wf_writeReg addr v h.1 ha hs) (by simp) (by simp) (by simp)
  obtain ⟨h1, c1⟩ := hostMovesPll_keeps_invariant (by simpa using hwf) hw e1
  obtain ⟨h2, c2⟩ := hostMovesPll_keeps_invariant (by simpa [c1] using hwf) h1 e2
  obtain ⟨h3, c3⟩ := hostMovesPll_keeps_invariant (by simpa [c2, c1] using hwf) h2 e3
  exact ⟨h3, by simp [c3, c2, c1]⟩

/-- Every input that the block takes keeps the invariant and the static tables. -/
theorem takeInput_keeps_invariant {s t : State} {i : Input} (hwf : s.cfg.wf = true) (h : Invariant s)
    (e : s.takeInput i = .next t) : Invariant t ∧ t.cfg = s.cfg := by
  cases i with
  | command cw resetAfter => exact exec_keeps_invariant (s := s.accept cw resetAfter) hwf h e
  | hostWrite addr w => exact hostWrite_keeps_invariant hwf h e
  | hostRead addr =>
    simp only [State.takeInput, State.hostRead] at e
    split at e <;> cases e
    exact ⟨h, rfl⟩
  | hardware m => cases e; exact ⟨hwMove_keeps_invariant hwf h m, by simp⟩
  | reset => cases e; exact ⟨invariant_blockReset h.1, rfl⟩

/-- Settles O48, by what a step can be: an operation, nothing, or an input taken. -/
theorem stepKeepsTheInvariant : Obligations.StepKeepsTheInvariant := by
  intro s t h e
  obtain ⟨hwf, ⟨-, e⟩ | ⟨-, -, rfl⟩ | ⟨i, rest, -, -, e⟩⟩ := step_next e
  · exact exec_keeps_invariant hwf h e
  · exact ⟨h, rfl⟩
  · exact takeInput_keeps_invariant (s := { s with inputs := rest }) hwf h e

end Sys2Proof.Machine
end

section
/-!
SUPPORT. Walks of the resolver over a well-formed topology end within `MAX_DEPTH` edges, at an oscillator of the table
(10_state.md R34, 40_resolver.md R122; O34).
-/

namespace Sys2Proof.Machine

theorem mem_of_menuLookup {menu : Menu} {v m : Nat} (h : menuLookup menu v = some m) : m ∈ menu.map Prod.snd := by
  induction menu with
  | nil => simp [menuLookup] at h
  | cons e rest ih =>
    simp only [menuLookup] at h
    split at h
    · cases h; exact List.mem_cons_self
    · exact List.mem_cons_of_mem _ (ih h)

/-- The edge to a parent uses up one of the edges a path may have. -/
theorem pathsWithin_parent {c : Config} {k n m : Nat} (h : c.pathsWithin k n = true) (hm : m ∈ c.parents n) :
    ∃ j, k = j + 1 ∧ c.pathsWithin j m = true := by
  cases k with
  | zero =>
    rw [Config.pathsWithin, List.isEmpty_iff] at h
    simp [h] at hm
  | succ j =>
    rw [Config.pathsWithin] at h
    exact ⟨j, rfl, List.all_eq_true.mp h m hm⟩

/-- The parents of a node are its menu's entries. -/
theorem mem_parents {c : Config} {n m : Nat} {node : Node} (hn : c.topo[n]? = some node)
    (hm : m ∈ node.menu.map Prod.snd) : m ∈ c.parents n := by
  simpa [Config.parents, hn] using hm

/-- R34 (a): a parent is a node. -/
theorem parent_lt {c : Config} {n m : Nat} (hwf : c.wf = true) (hm : m ∈ c.parents n) : m < c.nNodes := by
  have hrange : c.menusInRange = true := condition_of_wf hwf (by simp [Config.conditions])
  unfold Config.parents at hm
  split at hm
  · simp at hm
  · rename_i node hn
    obtain ⟨e, he, rfl⟩ := List.mem_map.mp hm
    simpa using List.all_eq_true.mp (List.all_eq_true.mp hrange node (List.mem_of_getElem? hn)) e he

/-- R34 (f): an oscillator node names an entry of the table. -/
theorem oscIndex_lt {c : Config} {n i : Nat} (hwf : c.wf = true) (hn : c.topo[n]? = some (.osc i)) : i < c.nOsc := by
  have honce : c.oscsOnce = true := condition_of_wf hwf (by simp [Config.conditions])
  have hi : i ∈ c.oscIndices := List.mem_filterMap.mpr ⟨_, List.mem_of_getElem? hn, rfl⟩
  simp only [Config.oscsOnce, Bool.and_eq_true] at honce
  simpa using List.all_eq_true.mp honce.1 i hi

/-- R34 (g): no path is longer than `MAX_DEPTH`. -/
theorem pathsWithin_maxDepth {c : Config} {n : Nat} (hwf : c.wf = true) (hn : n < c.nNodes) :
    c.pathsWithin c.maxDepth n = true := by
  have hdeep : c.deepEnough = true := condition_of_wf hwf (by simp [Config.conditions])
  exact List.all_eq_true.mp hdeep n (List.mem_range.mpr hn)

/-- From a node whose paths have at most `k` edges the reference resolver comes to a result on the fuel `k + 1`. -/
theorem exactResolve_ends {c : Config} {osc : List Oscillator} (word : Word → Word) (hwf : c.wf = true)
    (hosc : osc.length = c.nOsc) (k n : Nat) (hn : n < c.nNodes) (hk : c.pathsWithin k n = true) :
    ∃ r, exactResolve c osc word (k + 1) n = some r := by
  induction k using Nat.strong_induction_on generalizing n with
  | _ k ih =>
    obtain ⟨node, hnode⟩ : ∃ node, c.topo[n]? = some node := ⟨_, List.getElem?_eq_getElem hn⟩
    have below {v m : Nat} (hm : menuLookup node.menu v = some m) : ∃ r, exactResolve c osc word k m = some r := by
      have hp := mem_parents hnode (mem_of_menuLookup hm)
      obtain ⟨j, rfl, hj⟩ := pathsWithin_parent hk hp
      exact ih j (Nat.lt_succ_self j) m (parent_lt hwf hp) hj
    unfold exactResolve
    rw [hnode]
    cases node with
    | osc i =>
      have hi : i < osc.length := hosc ▸ oscIndex_lt hwf hnode
      exact ⟨.ok osc[i].freq.toNat, by simp [hi]⟩
    | pll p mux menu numer denom =>
      dsimp only
      split
      · exact ⟨_, rfl⟩
      · rename_i m hm
        obtain ⟨r, hr⟩ := below hm
        exact ⟨_, congrArg (Option.map _) hr⟩
    | derived mux menu div gate =>
      dsimp only
      split
      · exact ⟨_, rfl⟩
      · rename_i m hm
        obtain ⟨r, hr⟩ := below hm
        exact ⟨_, congrArg (Option.map _) hr⟩

/-- Settles O34, by induction on the edges that a walk may still make. -/
theorem walksAlwaysEnd : Obligations.WalksAlwaysEnd := fun _ _ word n hwf hosc hn =>
  exactResolve_ends word hwf hosc _ n hn (pathsWithin_maxDepth hwf hn)

end Sys2Proof.Machine
end

section
/-!
SUPPORT. The busy bit (10_state.md R43, 42_settle_and_lifecycle.md R184) where its register has a class of its own
(20_memory.md R58): the hardware's moves of it, and that no write reaches it (O53).
-/

namespace Sys2Proof.Machine

theorem statAddr_ne_statusAddr {c : Config} (h : oneClass c = true) : c.statAddr ≠ c.statusAddr := by
  simp only [oneClass, Bool.and_eq_true, decide_eq_true_eq] at h
  exact h.1.2

theorem statAddr_ne_statclrAddr {c : Config} (h : oneClass c = true) : c.statAddr ≠ c.statclrAddr := by
  simp only [oneClass, Bool.and_eq_true, decide_eq_true_eq] at h
  exact h.2

theorem busyBit_lt {c : Config} (h : c.wf = true) : c.busyBit < 32 := by
  have hbits : c.regmapBits = true := condition_of_wf h (by simp [Config.conditions])
  have : c.busyBit ≤ 31 := by simpa using List.all_eq_true.mp hbits c.busyBit (by simp)
  omega

/-- The busy bit is a bit of the word that its register stores. -/
theorem busy_eq_word {s : State} (h : oneClass s.cfg = true) :
    s.busy = (s.word s.cfg.statAddr).getLsbD s.cfg.busyBit := by
  rw [State.busy, State.readReg_of_ne s (statAddr_ne_statclrAddr h)]

theorem busy_congr {s t : State} (hc : t.cfg = s.cfg) (hm : t.mem = s.mem) : t.busy = s.busy := by
  unfold State.busy
  rw [State.readReg_congr hc hm, hc]

/-- The hardware's update of the busy bit replaces that bit in what its register reads as, and nothing else. -/
theorem readReg_setBusy {s : State} (h : oneClass s.cfg = true) (v : Bool) (x : Word) :
    (s.setBusy v).readReg x =
      if x = s.cfg.statAddr then withBit (s.readReg x) s.cfg.busyBit v else s.readReg x := by
  have hclr := statAddr_ne_statclrAddr h
  by_cases hx : x = s.cfg.statAddr
  · subst hx
    rw [if_pos rfl, State.readReg_of_ne _ (by simpa using hclr), State.readReg_of_ne s hclr, State.word_setBusy,
      if_pos rfl]
  · have hstatus := (statAddr_ne_statusAddr h).symm
    simp only [State.readReg, State.setBusy_cfg, State.word_setBusy, hx, hstatus, if_false]

/-- The bit is what the hardware made it. -/
theorem busy_setBusy {s : State} (hwf : s.cfg.wf = true) (h : oneClass s.cfg = true) (v : Bool) :
    (s.setBusy v).busy = v := by
  rw [State.busy, State.setBusy_cfg, readReg_setBusy h, if_pos rfl, getLsbD_withBit, if_pos ⟨busyBit_lt hwf, rfl⟩]

/-- Every other bit of every register is as it was. -/
theorem getLsbD_readReg_setBusy {s : State} (h : oneClass s.cfg = true) (v : Bool) {x : Word} {b : Nat}
    (hxb : x ≠ s.cfg.statAddr ∨ b ≠ s.cfg.busyBit) :
    ((s.setBusy v).readReg x).getLsbD b = (s.readReg x).getLsbD b := by
  rw [readReg_setBusy h]
  split
  · rename_i hx
    have hb : b ≠ s.cfg.busyBit := hxb.resolve_left (not_not_intro hx)
    simp [getLsbD_withBit, hb]
  · rfl

theorem hwMove_busyRises {s : State} (h : s.disturbed = true) : s.hwMove .busyRises = s.setBusy true := by
  simp [State.hwMove, h]

theorem hwMove_busyRises_of_undisturbed {s : State} (h : s.disturbed = false) : s.hwMove .busyRises = s := by
  simp [State.hwMove, h]

/-- The moves of the busy bit leave the lifecycle and every other bit as they are (R184). -/
theorem busyMove_frame {s : State} (h : oneClass s.cfg = true) {m : HwMove} (hm : m = .busyRises ∨ m = .busyFalls) :
    (s.hwMove m).life = s.life ∧
      ∀ x b, x ≠ s.cfg.statAddr ∨ b ≠ s.cfg.busyBit →
        ((s.hwMove m).readReg x).getLsbD b = (s.readReg x).getLsbD b := by
  rcases hm with rfl | rfl
  · cases hd : s.disturbed with
    | false => simp [hwMove_busyRises_of_undisturbed hd]
    | true =>
      rw [hwMove_busyRises hd]
      exact ⟨rfl, fun _ _ => getLsbD_readReg_setBusy h true⟩
  · exact ⟨rfl, fun _ _ => getLsbD_readReg_setBusy h false⟩

/-- The busy bit is none of the bits that a write of its register stores (R58 (c)). -/
theorem getLsbD_storeMask_busy {c : Config} (hb : c.busyBit < 32) :
    (storeMask c c.statAddr).getLsbD c.busyBit = false := by
  simp [storeMask, statusBitsAt, hb]

/-- A write of the busy bit's own register leaves the bit, whatever the word. -/
theorem getLsbD_word_writeReg_statAddr {s : State} (h : oneClass s.cfg = true) (v : Word) :
    ((s.writeReg s.cfg.statAddr v).word s.cfg.statAddr).getLsbD s.cfg.busyBit =
      (s.word s.cfg.statAddr).getLsbD s.cfg.busyBit := by
  have hword : (s.writeReg s.cfg.statAddr v).word s.cfg.statAddr =
      (s.word s.cfg.statAddr &&& ~~~(storeMask s.cfg s.cfg.statAddr)) ||| (v &&& storeMask s.cfg s.cfg.statAddr) := by
    simp only [State.writeReg, if_neg (statAddr_ne_statclrAddr h), State.storeReg, isStatusReg, beq_self_eq_true,
      Bool.or_true, if_true]
    exact State.word_setWord_same _ _ _
  rw [hword]
  by_cases hb : s.cfg.busyBit < 32
  · simp only [BitVec.getLsbD_or, BitVec.getLsbD_and, BitVec.getLsbD_not, getLsbD_storeMask_busy hb]
    simp [hb]
  · rw [BitVec.getLsbD_of_ge _ _ (by omega), BitVec.getLsbD_of_ge _ _ (by omega)]

/-- No write of any word to any register changes the busy bit. -/
theorem busy_writeReg {s : State} (h : oneClass s.cfg = true) (a v : Word) : (s.writeReg a v).busy = s.busy := by
  rw [busy_eq_word h, busy_eq_word (by simpa using h), State.writeReg_cfg]
  by_cases ha : a = s.cfg.statAddr
  · subst ha
    exact getLsbD_word_writeReg_statAddr h v
  · rw [State.word_writeReg_other s v (Ne.symm ha) fun _ => statAddr_ne_statusAddr h]

/-- The basic updates of every operation keep the busy bit, with no move of the hardware scheduled. -/
theorem stable_busy {c : Config} (h : oneClass c = true) (i : Instr) (b : Bool) :
    Stable c i fun u => u.cfg = c ∧ u.hw = [] ∧ u.busy = b where
  cfg _ hu := hu.1
  poll s hu := by rwa [State.pollHw_of_nil hu.2.1]
  countdown _ _ _ hu := hu
  read _ _ _ hu := hu
  write s a v _ _ := by
    rintro ⟨rfl, hw, hb⟩
    exact ⟨by simp, by simpa using hw, (busy_writeReg h a v).trans hb⟩
  rmw _ _ hu := hu
  acc _ _ hu := hu
  sp _ _ hu := hu
  stk _ _ hu := hu
  iter _ _ hu := hu
  osc _ _ _ _ _ hu := hu

/-- No operation changes the busy bit, reset or not, with no move of the hardware scheduled. -/
theorem exec_keeps_busy {i : Instr} {s t : State} (h : oneClass s.cfg = true) (hhw : s.hw = [])
    (e : exec i s = .next t) : t.busy = s.busy := by
  obtain ⟨u, ⟨-, -, hu⟩, ⟨-, v, rfl⟩ | ⟨-, k, rfl⟩ | ⟨-, rfl⟩⟩ := (stable_busy h i s.busy).exec ⟨rfl, hhw, rfl⟩ e
  · exact hu
  · exact hu
  · exact hu

/-- Settles O53: the hardware's two moves, a write of any register, and every operation. -/
theorem busyBitIsTheHardwares : Obligations.BusyBitIsTheHardwares := by
  refine ⟨fun s hwf h => ⟨fun hd => ?_, hwMove_busyRises_of_undisturbed, busy_setBusy hwf h false, rfl,
    fun _ => busyMove_frame h, fun a v => ⟨busy_writeReg h a v, s.writeReg_disturbed a v⟩⟩,
    fun i s t _ h hhw e => exec_keeps_busy h hhw e⟩
  rw [hwMove_busyRises hd]
  exact ⟨busy_setBusy hwf h true, hd⟩

end Sys2Proof.Machine
end

section
/-!
SUPPORT. Two states that differ in the transient registers alone (10_state.md R24, 30_encoding.md R84) stay so, and give
the same answers, through every part of every operation (O47).
-/

namespace Sys2Proof.Machine

/-! What the lasting part of a state determines -/

section
variable {s t : State} (h : s.lasting = t.lasting)
include h

theorem cfg_eq_of_lasting : s.cfg = t.cfg := (congrArg State.cfg h : s.lasting.cfg = t.lasting.cfg)

theorem osc_eq_of_lasting : s.osc = t.osc := (congrArg State.osc h : s.lasting.osc = t.lasting.osc)

theorem resetIn_eq_of_lasting : s.resetIn = t.resetIn :=
  (congrArg State.resetIn h : s.lasting.resetIn = t.lasting.resetIn)

theorem mem_eq_of_lasting : s.mem = t.mem := (congrArg State.mem h : s.lasting.mem = t.lasting.mem)

theorem readReg_eq_of_lasting (a : Word) : s.readReg a = t.readReg a :=
  State.readReg_congr (cfg_eq_of_lasting h) (mem_eq_of_lasting h) a

end

/-! What the shared updates make of it -/

theorem lasting_pollHw (s : State) : s.pollHw.lasting = s.lasting.pollHw := by
  obtain ⟨hm, hl, hd⟩ := State.pollHw_congr (s := s.lasting) (t := s) rfl rfl rfl rfl rfl
  rw [State.pollHw_eq s.lasting, hm, hl, hd, State.pollHw_eq s]
  rfl

theorem lasting_record (s : State) (e : Event) : (s.record e).lasting = s.lasting.record e := rfl

theorem lasting_storeReg (s : State) (a v : Word) : (s.storeReg a v).lasting = s.lasting.storeReg a v := by
  unfold State.storeReg
  rw [show s.lasting.cfg = s.cfg from rfl]
  split <;> rfl

theorem lasting_writeReg (s : State) (a v : Word) : (s.writeReg a v).lasting = s.lasting.writeReg a v := by
  unfold State.writeReg
  rw [← lasting_storeReg, show s.lasting.cfg = s.cfg from rfl]
  by_cases ha : a = s.cfg.statclrAddr
  · simp only [if_pos ha]; rfl
  · simp only [if_neg ha]; rfl

theorem lasting_succeed (s : State) (v : Word) : (s.succeed v).lasting = s.lasting.succeed v := rfl

theorem lasting_raiseFailure (s : State) (k : Failure) : (s.raiseFailure k).lasting = s.lasting.raiseFailure k := rfl

theorem blockReset_lasting (s : State) : s.lasting.blockReset = s.blockReset := rfl

/-! Parts of operations that go the same way -/

/-- Two parts of operations ended in the same way, in states with the same lasting part. -/
inductive Res.Alike {α : Type} : Res α → Res α → Prop where
  | ok {s t : State} (a : α) (h : s.lasting = t.lasting) : Alike (.ok a s) (.ok a t)
  | failed {s t : State} (k : Failure) (h : s.lasting = t.lasting) : Alike (.failed k s) (.failed k t)
  | resetHit {s t : State} (h : s.lasting = t.lasting) : Alike (.resetHit s) (.resetHit t)

/-- The same of two walks. -/
inductive Walk.Alike : Walk → Walk → Prop where
  | done {r1 r2 : Res Word} (h : r1.Alike r2) : Alike (.done r1) (.done r2)
  | stuck (f : Fault) : Alike (.stuck f) (.stuck f)

theorem Res.Alike.andThen {α β : Type} {r1 r2 : Res α} {k1 k2 : α → State → Res β} (h : r1.Alike r2)
    (hk : ∀ a s t, s.lasting = t.lasting → (k1 a s).Alike (k2 a t)) : (r1.andThen k1).Alike (r2.andThen k2) := by
  cases h with
  | ok a h => exact hk a _ _ h
  | failed k h => exact .failed k h
  | resetHit h => exact .resetHit h

theorem Res.Alike.thenWalk {α : Type} {r1 r2 : Res α} {k1 k2 : α → State → Walk} (h : r1.Alike r2)
    (hk : ∀ a s t, s.lasting = t.lasting → (k1 a s).Alike (k2 a t)) : (r1.thenWalk k1).Alike (r2.thenWalk k2) := by
  cases h with
  | ok a h => exact hk a _ _ h
  | failed k h => exact .done (.failed k h)
  | resetHit h => exact .done (.resetHit h)

theorem Walk.Alike.thenStage {w1 w2 : Walk} {k1 k2 : Word → State → Res Word} (h : w1.Alike w2)
    (hk : ∀ a s t, s.lasting = t.lasting → (k1 a s).Alike (k2 a t)) : (w1.thenStage k1).Alike (w2.thenStage k2) := by
  cases h with
  | done h => exact .done (h.andThen hk)
  | stuck f => exact .stuck f

/-- However a part of an operation ended, the operation's end has the same lasting part. -/
theorem Res.Alike.lasting_conclude {r1 r2 : Res Word} (h : r1.Alike r2) : r1.conclude.lasting = r2.conclude.lasting := by
  have reset {s t : State} (h : s.lasting = t.lasting) : s.blockReset.lasting = t.blockReset.lasting := by
    rw [← blockReset_lasting s, h, blockReset_lasting]
  cases h with
  | @ok s t v h =>
    simp only [Res.conclude, resetIn_eq_of_lasting h]
    split
    · rw [lasting_succeed, h, lasting_succeed]
    · exact reset h
  | @failed s t k h =>
    simp only [Res.conclude, resetIn_eq_of_lasting h]
    split
    · rw [lasting_raiseFailure, h, lasting_raiseFailure]
    · exact reset h
  | resetHit h => exact reset h

theorem Res.Alike.finish {r1 r2 : Res Word} (h : r1.Alike r2) : SameLasting (finish r1) (finish r2) :=
  h.lasting_conclude

theorem Walk.Alike.outcome {w1 w2 : Walk} (h : w1.Alike w2) : SameLasting w1.outcome w2.outcome := by
  cases h with
  | done h => exact h.finish
  | stuck f => rfl

/-! The shared operations -/

section
variable {s t : State} (h : s.lasting = t.lasting)
include h

theorem transferPoint_alike : s.transferPoint.Alike t.transferPoint := by
  have poll {u v : State} (h : u.lasting = v.lasting) : u.pollHw.lasting = v.pollHw.lasting := by
    rw [lasting_pollHw, h, lasting_pollHw]
  unfold State.transferPoint
  rw [resetIn_eq_of_lasting h]
  split
  · exact .ok () (poll h)
  · exact .resetHit h
  · rename_i k _
    exact .ok () (poll (congrArg (fun u : State => { u with resetIn := some k }) h))

theorem read32_alike (a : Word) : (read32 a s).Alike (read32 a t) := by
  refine (transferPoint_alike h).andThen fun _ s t h => ?_
  rw [readReg_eq_of_lasting h a]
  exact .ok _ (by rw [lasting_record, h, lasting_record])

theorem write32_alike (a v : Word) : (write32 a v s).Alike (write32 a v t) :=
  (transferPoint_alike h).andThen fun _ s t h =>
    .ok () (by rw [lasting_record, lasting_writeReg, h, lasting_record, lasting_writeReg])

theorem setBits32_alike (a m : Word) : (setBits32 a m s).Alike (setBits32 a m t) :=
  (read32_alike h a).andThen fun w s t h => write32_alike (s := { s with rmw := w }) (t := { t with rmw := w }) h a _

theorem clearBits32_alike (a m : Word) : (clearBits32 a m s).Alike (clearBits32 a m t) :=
  (read32_alike h a).andThen fun w s t h => write32_alike (s := { s with rmw := w }) (t := { t with rmw := w }) h a _

theorem readField_alike (f : Field) : (readField f s).Alike (readField f t) :=
  (read32_alike h f.addr).andThen fun _ _ _ h => .ok _ h

theorem selectParent_alike (mux : Field) (menu : Menu) : (selectParent mux menu s).Alike (selectParent mux menu t) := by
  refine (readField_alike h mux).andThen fun v s t h => ?_
  split
  · exact .failed _ h
  · exact .ok _ h

theorem pllStage_alike (fp n d : Word) : (pllStage fp n d s).Alike (pllStage fp n d t) := by
  unfold pllStage
  dsimp only
  split
  · exact .failed _ h
  · exact .ok _ h

theorem derivedStage_alike (fp r : Word) : (derivedStage fp r s).Alike (derivedStage fp r t) := .ok _ h

end

/-- Two walks from states with the same lasting part go the same way: `stk` and `sp` are written and never read. -/
theorem resolveNode_alike (fuel n : Nat) {s t : State} (h : s.lasting = t.lasting) :
    (resolveNode fuel n s).Alike (resolveNode fuel n t) := by
  induction fuel generalizing n s t with
  | zero => exact .stuck _
  | succ fuel ih =>
    have hv : (s.visit n).lasting = (t.visit n).lasting := h
    unfold resolveNode
    dsimp only
    rw [cfg_eq_of_lasting hv, osc_eq_of_lasting hv]
    split
    · exact .stuck _
    · split
      · exact .stuck _
      · exact .done (.ok _ hv)
    · refine (selectParent_alike hv _ _).thenWalk fun m s t h => ?_
      refine (ih m (s := s.descend) (t := t.descend) h).thenStage fun fp s t h => ?_
      refine (readField_alike (s := s.ascend) (t := t.ascend) h _).andThen fun rn s t h => ?_
      exact (readField_alike h _).andThen fun rd s t h => pllStage_alike h fp rn rd
    · refine (selectParent_alike hv _ _).thenWalk fun m s t h => ?_
      refine (ih m (s := s.descend) (t := t.descend) h).thenStage fun fp s t h => ?_
      exact (readField_alike (s := s.ascend) (t := t.ascend) h _).andThen fun r s t h => derivedStage_alike h fp r

/-- The poll loop counts in `iter`, and is bounded by the reads left, not by `iter`. -/
theorem settleLoop_alike (n : Nat) {s t : State} (h : s.lasting = t.lasting) :
    (settleLoop n s).Alike (settleLoop n t) := by
  induction n generalizing s t with
  | zero => exact .failed _ h
  | succ n ih =>
    unfold settleLoop
    rw [cfg_eq_of_lasting h]
    refine (read32_alike h _).andThen fun w s t h => ?_
    rw [cfg_eq_of_lasting h]
    split
    · exact ih (s := s.countRead) (t := t.countRead) h
    · exact .ok _ h

/-- Settles O47, operation by operation. -/
theorem transientRegistersDoNotMatter : Obligations.TransientRegistersDoNotMatter := by
  intro i s t h
  have hc := cfg_eq_of_lasting h
  have bad : (Res.failed .badArgument s : Res Word).Alike (.failed .badArgument t) := .failed _ h
  cases i with
  | resolve a =>
    have h0 : ({ s with sp := 0 } : State).lasting = ({ t with sp := 0 } : State).lasting := h
    simp only [exec, execResolve]
    rw [hc] at h0 ⊢
    split
    · exact bad.finish
    · exact (resolveNode_alike _ _ h0).outcome
  | oscSet a b =>
    refine Res.Alike.finish ?_
    rw [hc]
    split
    · exact bad
    · rename_i n _
      exact .ok _ (congrArg (State.setOscFreq · n b) h)
  | pllLocked a =>
    refine Res.Alike.finish ?_
    rw [hc]
    split
    · exact bad
    · refine (read32_alike h _).andThen fun w s t h => ?_
      rw [cfg_eq_of_lasting h]
      exact .ok _ h
  | pllBypassed a =>
    refine Res.Alike.finish ?_
    rw [hc]
    split
    · exact bad
    · refine (read32_alike h _).andThen fun w s t h => ?_
      rw [cfg_eq_of_lasting h]
      refine (read32_alike h _).andThen fun w s t h => ?_
      rw [cfg_eq_of_lasting h]
      exact .ok _ h
  | statClear a =>
    refine Res.Alike.finish ?_
    rw [hc]
    split
    · exact (write32_alike h _ _).andThen fun _ _ _ h => .ok _ h
    · exact bad
  | clkEnable a =>
    refine Res.Alike.finish ?_
    rw [hc]
    split
    · exact .failed _ h
    · exact (setBits32_alike h _ _).andThen fun _ _ _ h => .ok _ h
  | clkDisable a =>
    refine Res.Alike.finish ?_
    rw [hc]
    split
    · exact .failed _ h
    · exact (clearBits32_alike h _ _).andThen fun _ _ _ h => .ok _ h
  | clkEnabled a =>
    refine Res.Alike.finish ?_
    rw [hc]
    split
    · exact .failed _ h
    · exact (read32_alike h _).andThen fun _ _ _ h => .ok _ h
  | settleWait =>
    have h0 : ({ s with iter := 0#32 } : State).lasting = ({ t with iter := 0#32 } : State).lasting := h
    refine Res.Alike.finish ?_
    rw [hc] at h0 ⊢
    exact settleLoop_alike _ h0
  | reserved0 => exact bad.finish
  | reservedA => exact bad.finish
  | reservedB => exact bad.finish
  | reservedC => exact bad.finish
  | reservedD => exact bad.finish
  | reservedE => exact bad.finish
  | reservedF => exact bad.finish

end Sys2Proof.Machine
end

section
/-!
SUPPORT. Which transfers an operation issues (20_memory.md R59, R66): to which addresses (O45), and which operations
write (O43).
-/

namespace Sys2Proof.Machine

/-- From `s` to `t` transfers were issued, each one meeting `P`. -/
def IssuedAll (P : Event → Prop) (s t : State) : Prop := ∃ es, Issued s t es ∧ ∀ e ∈ es, P e

theorem IssuedAll.refl (P : Event → Prop) (s : State) : IssuedAll P s s :=
  ⟨[], (List.append_nil _).symm, by simp⟩

theorem IssuedAll.congr {P : Event → Prop} {s t u : State} (h : IssuedAll P s t) (he : u.events = t.events) :
    IssuedAll P s u := by
  obtain ⟨es, hes, hP⟩ := h
  exact ⟨es, he.trans hes, hP⟩

theorem IssuedAll.record {P : Event → Prop} {s t : State} {e : Event} (h : IssuedAll P s t) (he : P e) :
    IssuedAll P s (t.record e) := by
  obtain ⟨es, hes, hP⟩ := h
  refine ⟨es ++ [e], ?_, fun d hd => ?_⟩
  · rw [Issued, State.record_events, hes, List.append_assoc]
  · rcases List.mem_append.mp hd with hd | hd
    · exact hP d hd
    · exact List.mem_singleton.mp hd ▸ he

/-- The transfers of every operation meet what the reads of the block's addresses and, where the operation writes, the
writes to them meet. -/
theorem stable_issuedAll {c : Config} {i : Instr} {P : Event → Prop} (s : State)
    (hr : ∀ a w, a ∈ blockAddresses c → P (.rd a w)) (hw : writes i → ∀ a w, a ∈ blockAddresses c → P (.wr a w)) :
    Stable c i fun u => u.cfg = c ∧ IssuedAll P s u where
  cfg _ h := h.1
  poll u h := ⟨by simp [h.1], h.2.congr (by simp)⟩
  countdown _ _ _ h := h
  read u a ha h := ⟨h.1, h.2.record (hr a _ ha)⟩
  write u a v hi ha h := ⟨by simp [h.1], (h.2.congr (u := u.writeReg a v) (by simp)).record (hw hi a v ha)⟩
  rmw _ _ h := h
  acc _ _ h := h
  sp _ _ h := h
  stk _ _ h := h
  iter _ _ h := h
  osc _ _ _ _ _ h := h

/-- So do those issued by its end: no end of an operation is a transfer. -/
theorem exec_issuedAll {i : Instr} {s t : State} {P : Event → Prop}
    (hr : ∀ a w, a ∈ blockAddresses s.cfg → P (.rd a w))
    (hw : writes i → ∀ a w, a ∈ blockAddresses s.cfg → P (.wr a w)) (e : exec i s = .next t) : IssuedAll P s t := by
  obtain ⟨u, ⟨-, hu⟩, ⟨-, v, rfl⟩ | ⟨-, k, rfl⟩ | ⟨-, rfl⟩⟩ :=
    (stable_issuedAll s hr hw).exec ⟨rfl, IssuedAll.refl P s⟩ e
  · exact hu
  · exact hu
  · exact hu

/-- Settles O45: a transfer of either kind goes to an address of the block. -/
theorem transfersStayInTheAddressSet : Obligations.TransfersStayInTheAddressSet := fun _ _ _ e =>
  exec_issuedAll (fun _ _ ha => ha) (fun _ _ _ ha => ha) e

theorem not_writes {i : Instr} (h : ∀ a, i ≠ .statClear a ∧ i ≠ .clkEnable a ∧ i ≠ .clkDisable a) : ¬ writes i := by
  cases i with
  | statClear a => exact absurd rfl (h a).1
  | clkEnable a => exact absurd rfl (h a).2.1
  | clkDisable a => exact absurd rfl (h a).2.2
  | _ => exact id

/-- The basic updates of an operation that does not write keep the register space, with no move of the hardware
scheduled. -/
theorem stable_mem {c : Config} {i : Instr} (hi : ¬ writes i) (m : Memory) :
    Stable c i fun u => u.cfg = c ∧ u.hw = [] ∧ u.mem = m where
  cfg _ h := h.1
  poll s h := by rwa [State.pollHw_of_nil h.2.1]
  countdown _ _ _ h := h
  read _ _ _ h := h
  write _ _ _ hw _ _ := absurd hw hi
  rmw _ _ h := h
  acc _ _ h := h
  sp _ _ h := h
  stk _ _ h := h
  iter _ _ h := h
  osc _ _ _ _ _ h := h

/-- An operation that does not write leaves every register as it was, with no move of the hardware scheduled. -/
theorem exec_keepsRegisters {i : Instr} {s t : State} (hi : ¬ writes i) (hhw : s.hw = []) (e : exec i s = .next t) :
    KeepsRegisters s t := by
  obtain ⟨u, ⟨hc, -, hm⟩, ⟨-, v, rfl⟩ | ⟨-, k, rfl⟩ | ⟨-, rfl⟩⟩ := (stable_mem hi s.mem).exec ⟨rfl, hhw, rfl⟩ e
  · exact .of_mem hc hm
  · exact .of_mem hc hm
  · exact .of_mem hc hm

/-- Settles O43: an operation other than the three issues reads alone. -/
theorem onlyThreeOperationsWrite : Obligations.OnlyThreeOperationsWrite := fun _ _ _ _ e h =>
  ⟨exec_issuedAll (fun _ _ _ => rfl) (fun hw => absurd hw (not_writes h)) e,
    fun hhw => exec_keepsRegisters (not_writes h) hhw e⟩

end Sys2Proof.Machine
end

section
/-!
SUPPORT. The poll loop of SETTLE_WAIT, whatever words its reads return (42_settle_and_lifecycle.md R171, R172; O27).
-/

namespace Sys2Proof.Machine

/-- The loop makes at most the reads permitted, one at least where one is, all of `ADDR_STAT`, and ends in a success or
a timeout. -/
theorem settleLoop_bounded (n : Nat) {s : State} (h : s.resetIn = none) :
    ∃ u es, (settleLoop n s = .ok 0#32 u ∨ settleLoop n s = .failed .timeout u) ∧ u.resetIn = none ∧
      Issued s u es ∧ min 1 n ≤ es.length ∧ es.length ≤ n ∧
      ∀ e ∈ es, e.isWrite = false ∧ e.addr = s.cfg.statAddr := by
  induction n generalizing s with
  | zero => exact ⟨s, [], .inr rfl, h, (List.append_nil _).symm, Nat.zero_le _, Nat.le_refl 0, by simp⟩
  | succ n ih =>
    let w := s.pollHw.readReg s.cfg.statAddr
    let u := (s.pollHw.record (.rd s.cfg.statAddr w)).countRead
    have hu : u.resetIn = none := by simpa [u] using h
    have he : u.events = s.events ++ [.rd s.cfg.statAddr w] := by simp [u]
    have hloop : settleLoop (n + 1) s = if w.getLsbD s.cfg.busyBit then settleLoop n u else .ok 0#32 u := by
      simp [settleLoop, read32_noReset _ h, u, w]
    rw [hloop]
    split
    · obtain ⟨t, es, hend, ht, hes, -, hle, hall⟩ := ih hu
      refine ⟨t, .rd s.cfg.statAddr w :: es, hend, ht, ?_, by simp, by simpa using hle, ?_⟩
      · rw [Issued, hes, he, List.append_assoc, List.singleton_append]
      · rintro e (_ | ⟨_, hmem⟩)
        · exact ⟨rfl, rfl⟩
        · simpa [u] using hall e hmem
    · exact ⟨u, _, .inl rfl, hu, he, by simp, by simp, by simp [Event.isWrite, Event.addr]⟩

/-- Settles O27: SETTLE_WAIT is the loop with `SETTLE_BOUND` reads permitted. -/
theorem settleIsBounded : Obligations.SettleIsBounded := by
  intro s h hbound
  obtain ⟨u, es, hend, hu, hes, hmin, hle, hall⟩ :=
    settleLoop_bounded s.cfg.settleBound (s := { s with iter := 0#32 }) h
  have hexec : exec .settleWait s = .next (settleLoop s.cfg.settleBound { s with iter := 0#32 }).conclude := rfl
  have hpos : 1 ≤ es.length := by omega
  rcases hend with hend | hend
  · rw [hend, Res.conclude_ok _ hu] at hexec
    exact ⟨_, es, hexec, hes, hpos, hle, hall, .inl ⟨rfl, rfl, rfl, rfl⟩⟩
  · rw [hend, Res.conclude_failed _ hu] at hexec
    exact ⟨_, es, hexec, hes, hpos, hle, hall, .inr ⟨rfl, rfl, rfl⟩⟩

end Sys2Proof.Machine
end

section
/-!
SUPPORT. What a write leaves in every register, by the register's class (20_memory.md R54, R58), and in the latches and
lock bits (O17).
-/

namespace Sys2Proof

/-- The entry of a PLL is one of the table's three. -/
theorem PerPll.get_mem_toList {α : Type} (t : PerPll α) (p : PllId) : t.get p ∈ t.toList := by
  cases p <;> simp [PerPll.get, PerPll.toList]

end Sys2Proof

namespace Sys2Proof.Machine

/-! The word a write leaves, from the word before it -/

/-- What a write of `v` to the register at `a` leaves stored at `x`, where `old` was stored. -/
def writtenWord (c : Config) (a v x old : Word) : Word :=
  let w := if x = a then
      if isStatusReg c a then (old &&& ~~~(storeMask c a)) ||| (v &&& storeMask c a) else v
    else old
  if a = c.statclrAddr ∧ x = c.statusAddr then w &&& ~~~(v &&& allowedMask c) else w

/-- Each stored word after a write depends on no other stored word. -/
theorem State.word_writeReg (s : State) (a v x : Word) :
    (s.writeReg a v).word x = writtenWord s.cfg a v x (s.word x) := by
  have hstore : (s.storeReg a v).word x = if x = a then
      if isStatusReg s.cfg a then (s.word x &&& ~~~(storeMask s.cfg a)) ||| (v &&& storeMask s.cfg a) else v
    else s.word x := by
    by_cases hx : x = a
    · subst hx
      unfold State.storeReg
      split <;> simp
    · unfold State.storeReg
      split <;> simp [State.word_setWord, hx]
  unfold writtenWord
  rw [← hstore]
  by_cases ha : a = s.cfg.statclrAddr
  · have hclear : (s.writeReg a v).word x = ((s.storeReg a v).clearLatches v).word x := by
      simp only [State.writeReg, if_pos ha]; rfl
    rw [hclear, State.clearLatches, State.word_setWord, State.storeReg_cfg]
    by_cases hx : x = s.cfg.statusAddr
    · simp [ha, hx]
    · simp [hx]
  · simp only [State.writeReg, ha, false_and, if_false]; rfl

/-- A register of the plain class takes the whole word (R58 (a)). -/
theorem writtenWord_plain {c : Config} {a : Word} (h : isStatusReg c a = false) (v old : Word) :
    writtenWord c a v a old = v := by
  have ha : a ≠ c.statclrAddr := by simp_all [isStatusReg]
  simp [writtenWord, h, ha]

/-- To replace the bits of `m` by those of `v`, and then to keep those of `k` alone, is to do so twice. -/
theorem replaceBits_idem (m k v old : Word) :
    ((((old &&& ~~~m) ||| (v &&& m)) &&& k) &&& ~~~m ||| (v &&& m)) &&& k = ((old &&& ~~~m) ||| (v &&& m)) &&& k := by
  ext i hi
  simp only [BitVec.getElem_and, BitVec.getElem_or, BitVec.getElem_not]
  cases m[i]
  · simp
  · simp

/-- The same write made again stores the same word. -/
theorem writtenWord_idem (c : Config) (a v x old : Word) :
    writtenWord c a v x (writtenWord c a v x old) = writtenWord c a v x old := by
  unfold writtenWord
  dsimp only
  split_ifs
  · exact replaceBits_idem ..
  · rfl
  · rw [BitVec.and_assoc, BitVec.and_self]
  · simpa only [BitVec.and_allOnes] using replaceBits_idem (storeMask c a) (BitVec.allOnes 32) v old
  · rfl
  · rfl

/-- States with the same tables and the same words read the same. -/
theorem KeepsRegisters.of_word {s t : State} (hc : t.cfg = s.cfg) (hw : ∀ x, t.word x = s.word x) :
    KeepsRegisters s t := fun x => by simp only [State.readReg, hc, hw]

/-! Latches and lock bits -/

/-- A write of any register stores no latch and no lock bit of the status register as a plain bit (R58 (b)). -/
theorem getLsbD_storeMask_of_statusMask {c : Config} {b : Nat} (h : (statusMask c).getLsbD b = true) :
    (storeMask c c.statusAddr).getLsbD b = false := by
  simp [storeMask, statusBitsAt, h]

/-- What a write does to a latch or a lock bit: a latch is cleared by a 1 at its position in a write of
`ADDR_STATCLR`, and nothing else happens (R58 (b), 41_pll_monitor.md R145). -/
theorem getLsbD_status_writeReg (s : State) (a v : Word) {b : Nat} (h : (statusMask s.cfg).getLsbD b = true) :
    ((s.writeReg a v).readReg s.cfg.statusAddr).getLsbD b =
      ((s.readReg s.cfg.statusAddr).getLsbD b &&
        !(decide (a = s.cfg.statclrAddr) && v.getLsbD b && (allowedMask s.cfg).getLsbD b)) := by
  have hb : b < 32 := BitVec.lt_of_getLsbD h
  have hread := (s.writeReg a v).readReg_status
  rw [State.writeReg_cfg] at hread
  rw [hread, State.readReg_status, State.word_writeReg, writtenWord]
  by_cases hx : s.cfg.statusAddr = a
  · subst hx
    have hm := getLsbD_storeMask_of_statusMask h
    rw [BitVec.getLsbD_eq_getElem hb] at hm
    by_cases hc : s.cfg.statusAddr = s.cfg.statclrAddr
    · simp [← hc, isStatusReg, hm, hb]
    · simp [hc, isStatusReg, hm, hb]
  · by_cases hc : a = s.cfg.statclrAddr
    · rw [if_neg hx, if_pos ⟨hc, rfl⟩]
      simp [hc, hb]
    · simp [hc, hx]

theorem latch_mem {c : Config} {p : PllId} {b : Nat} (hb : b = c.achBit.get p ∨ b = c.lostBit.get p) :
    b ∈ c.achBit.toList ++ c.lostBit.toList := by
  rcases hb with rfl | rfl
  · exact List.mem_append_left _ (c.achBit.get_mem_toList p)
  · exact List.mem_append_right _ (c.lostBit.get_mem_toList p)

/-- The positions of latches and lock bits are positions of a word (00_scope.md R9). -/
theorem statusBit_lt {c : Config} (hwf : c.wf = true) {b : Nat}
    (hb : b ∈ c.lockedBit.toList ∨ b ∈ c.achBit.toList ++ c.lostBit.toList) : b < 32 := by
  have hbits : c.regmapBits = true := condition_of_wf hwf (by simp [Config.conditions])
  have hle : b ≤ 31 := by
    refine of_decide_eq_true (List.all_eq_true.mp hbits b ?_)
    simp only [List.mem_cons, List.mem_append] at hb ⊢
    tauto
  omega

/-- A latch is a bit of `ALLOWED_MASK` (41_pll_monitor.md R146). -/
theorem getLsbD_allowedMask_latch {c : Config} (hwf : c.wf = true) {p : PllId} {b : Nat}
    (hb : b = c.achBit.get p ∨ b = c.lostBit.get p) : (allowedMask c).getLsbD b = true := by
  rw [allowedMask, getLsbD_bitsMask]
  simp only [statusBit_lt hwf (.inr (latch_mem hb)), latch_mem hb, decide_true, Bool.and_self]

theorem getLsbD_statusMask_latch {c : Config} (hwf : c.wf = true) {p : PllId} {b : Nat}
    (hb : b = c.achBit.get p ∨ b = c.lostBit.get p) : (statusMask c).getLsbD b = true := by
  rw [statusMask, BitVec.getLsbD_or, getLsbD_allowedMask_latch hwf hb, Bool.true_or]

theorem lockedBit_lt {c : Config} (hwf : c.wf = true) (p : PllId) : c.lockedBit.get p < 32 :=
  statusBit_lt hwf (.inl (c.lockedBit.get_mem_toList p))

theorem getLsbD_statusMask_lock {c : Config} (hwf : c.wf = true) (p : PllId) :
    (statusMask c).getLsbD (c.lockedBit.get p) = true := by
  rw [statusMask, BitVec.getLsbD_or, lockMask, getLsbD_bitsMask]
  simp only [lockedBit_lt hwf p, c.lockedBit.get_mem_toList p, decide_true, Bool.and_self, Bool.or_true]

theorem nodup_statusBits {c : Config} (hwf : c.wf = true) :
    (c.lockedBit.toList ++ (c.achBit.toList ++ c.lostBit.toList)).Nodup := by
  have h : c.statusBitsDistinct = true := condition_of_wf hwf (by simp [Config.conditions])
  simpa only [Config.statusBitsDistinct, decide_eq_true_eq, List.append_assoc] using h

/-- No lock bit is a latch (00_scope.md R9). -/
theorem getLsbD_allowedMask_lock {c : Config} (hwf : c.wf = true) (p : PllId) :
    (allowedMask c).getLsbD (c.lockedBit.get p) = false := by
  obtain ⟨-, -, hapart⟩ := List.nodup_append.mp (nodup_statusBits hwf)
  have hnot : c.lockedBit.get p ∉ c.achBit.toList ++ c.lostBit.toList := fun hmem =>
    hapart _ (c.lockedBit.get_mem_toList p) _ hmem rfl
  rw [allowedMask, getLsbD_bitsMask, decide_eq_false hnot, Bool.and_false]

/-- A latch after a write (R58 (b)). -/
theorem latch_writeReg {s : State} (hwf : s.cfg.wf = true) (a v : Word) {p : PllId} {b : Nat}
    (hb : b = s.cfg.achBit.get p ∨ b = s.cfg.lostBit.get p) :
    ((s.writeReg a v).readReg s.cfg.statusAddr).getLsbD b =
      ((s.readReg s.cfg.statusAddr).getLsbD b && !(decide (a = s.cfg.statclrAddr) && v.getLsbD b)) := by
  rw [getLsbD_status_writeReg s a v (getLsbD_statusMask_latch hwf hb), getLsbD_allowedMask_latch hwf hb, Bool.and_true]

/-- No write of any word to any register changes a lock bit of itself (R58 (b)). -/
theorem lck_writeReg {s : State} (hwf : s.cfg.wf = true) (a v : Word) (p : PllId) :
    (s.writeReg a v).lck p = s.lck p := by
  rw [State.lck, State.writeReg_cfg, getLsbD_status_writeReg s a v (getLsbD_statusMask_lock hwf p),
    getLsbD_allowedMask_lock hwf p, Bool.and_false, Bool.not_false, Bool.and_true, State.lck]

/-- A write of the status-clear register changes no register but that and the status register. -/
theorem readReg_writeReg_statclr {s : State} (v : Word) {x : Word} (hs : x ≠ s.cfg.statusAddr)
    (hc : x ≠ s.cfg.statclrAddr) : (s.writeReg s.cfg.statclrAddr v).readReg x = s.readReg x := by
  rw [State.readReg_of_ne _ (by simpa using hc), State.readReg_of_ne s hc, State.word_writeReg_other s v hc fun _ => hs]

/-- Settles O17. -/
theorem statusClearClearsNamedLatches : Obligations.StatusClearClearsNamedLatches := by
  intro s m hwf
  refine ⟨fun p b hb => ?_, lck_writeReg hwf _ m, fun x hs hc => readReg_writeReg_statclr m hs hc⟩
  simpa using latch_writeReg hwf s.cfg.statclrAddr m hb

end Sys2Proof.Machine
end

section
/-!
SUPPORT. The three operations that write: the stale word of a read-modify-write (20_memory.md R57; O23), and the same
operation done twice (O24).
-/

namespace Sys2Proof.Machine

/-! The gate registers -/

/-- The register of a node's gate is one of the plain class (R58 (a)). -/
theorem gateAddr_mem_plainAddresses {c : Config} {n : Nat} {g : Gate} (h : gateOf c n = some g) :
    g.addr ∈ plainAddresses c := by
  unfold gateOf at h
  split at h
  · rename_i mux menu div gate hn
    refine List.mem_append_right _ (List.mem_flatMap.mpr ⟨_, List.mem_of_getElem? hn, ?_⟩)
    simp [nodeAddresses, nodeGate, h]
  · simp at h

/-- Where every register has one class, no plain register has status bits. -/
theorem not_isStatusReg_of_oneClass {c : Config} (h : oneClass c = true) {a : Word} (ha : a ∈ plainAddresses c) :
    isStatusReg c a = false := by
  simp only [oneClass, Bool.and_eq_true] at h
  simpa using List.all_eq_true.mp h.1.1 a ha

/-- The word of a plain register after CLK_ENABLE is the word that its first transfer read, with the gate bit set: what
the hardware did to the register between the two transfers does not matter (R57). -/
theorem readReg_of_clkEnable {s t : State} {a : Word} {g : Gate} (hr : s.resetIn = none)
    (hg : gateOperand s.cfg a = .ok g) (hplain : isStatusReg s.cfg g.addr = false)
    (e : exec (.clkEnable a) s = .next t) :
    t.readReg g.addr = s.pollHw.readReg g.addr ||| bitMask g.bit := by
  simp only [exec, execClkEnable, hg, setBits32_noReset g.addr _ hr, Res.andThen_ok, finish_eq,
    Host.Outcome.next.injEq] at e
  rw [Res.conclude_ok _ (by simpa using hr)] at e
  rw [State.readReg_plain t (by simpa [← e] using hplain), ← e]
  exact (State.word_writeReg _ _ _ _).trans (writtenWord_plain (by simpa using hplain) _ _)

/-- Settles O23: the hardware makes no move before the read, and its move before the write is lost. -/
theorem changeBetweenHalvesIsLost : Obligations.ChangeBetweenHalvesIsLost := by
  intro s a x g rest hr ha hg hplain hhw
  have hop : gateOperand s.cfg a = .ok g := gateOperand_ok.mpr ⟨ha, hg⟩
  obtain ⟨t, e⟩ : ∃ t, exec (.clkEnable a) s = .next t := ⟨_, rfl⟩
  have hpoll : s.pollHw = { s with hw := [.drive g.addr x] :: rest } := by simp [State.pollHw, hhw]
  refine ⟨t, e, ?_⟩
  rw [readReg_of_clkEnable hr hop hplain e, hpoll]
  rfl

/-! The operations that write, made twice -/

/-- From `s` to `t` an operation made one write, of `v` to the register at `a`, and answered OK. -/
structure WroteOnce (s : State) (a v : Word) (t : State) : Prop where
  cfg : t.cfg = s.cfg
  word : ∀ x, t.word x = (s.writeReg a v).word x
  undisturbed : Undisturbed t
  status : t.status = okCode

/-- The same write made by two operations, one after the other, has its effect once. -/
theorem WroteOnce.keepsRegisters {s t u : State} {a v : Word} (h : WroteOnce s a v t) (h' : WroteOnce t a v u) :
    KeepsRegisters t u := by
  refine .of_word h'.cfg fun x => ?_
  rw [h'.word, State.word_writeReg, h.word, State.word_writeReg, h.cfg, writtenWord_idem]

/-- So has the same idempotent change `f` of the word that a plain register holds. -/
theorem WroteOnce.keepsRegisters_of_idem {s t u : State} {a : Word} {f : Word → Word} (hf : ∀ w, f (f w) = f w)
    (hplain : isStatusReg s.cfg a = false) (h : WroteOnce s a (f (s.readReg a)) t)
    (h' : WroteOnce t a (f (t.readReg a)) u) : KeepsRegisters t u := by
  have hread : t.readReg a = f (s.readReg a) := by
    rw [State.readReg_plain t (h.cfg ▸ hplain), h.word, State.word_writeReg, writtenWord_plain hplain]
  rw [hread, hf] at h'
  exact h.keepsRegisters h'

/-- A write and the answer OK make one write, from any state with the tables and the register space of `s`. -/
theorem wroteOnce_of_write {s u : State} (hc : u.cfg = s.cfg) (hm : u.mem = s.mem) (hu : Undisturbed u) (a v : Word)
    (e : Event) : WroteOnce s a v (((u.writeReg a v).record e).succeed 0#32) where
  cfg := by simpa using hc
  word x := by
    refine (State.word_writeReg u a v x).trans ?_
    rw [State.word_writeReg, hc, State.word_congr hm]
  undisturbed := by simpa [Undisturbed] using hu
  status := rfl

section
variable {s t : State} {a : Word} (hu : Undisturbed s)
include hu

theorem read32_undisturbed : read32 a s = .ok (s.readReg a) (s.record (.rd a (s.readReg a))) := by
  rw [read32_noReset a hu.2, State.pollHw_of_nil hu.1]

theorem write32_undisturbed {v : Word} : write32 a v s = .ok () ((s.writeReg a v).record (.wr a v)) := by
  rw [write32_noReset a v hu.2, State.pollHw_of_nil hu.1]

/-- STAT_CLEAR of a mask within `ALLOWED_MASK`, undisturbed (41_pll_monitor.md R144). -/
theorem wroteOnce_statClear (hm : maskAllowed s.cfg a = true) (e : exec (.statClear a) s = .next t) :
    WroteOnce s s.cfg.statclrAddr a t := by
  simp only [exec, execStatClear, hm, if_true] at e
  rw [write32_undisturbed hu, Res.andThen_ok, finish_eq, Res.conclude_ok _ (by simpa using hu.2)] at e
  cases e
  exact wroteOnce_of_write rfl rfl hu _ a _

/-- A read-modify-write and the answer OK, undisturbed (20_memory.md R55, R56). -/
theorem wroteOnce_readModifyWrite {f : Word → Word}
    (e : finish (((read32 a s).andThen fun w s => write32 a (f w) { s with rmw := w }).andThen fun _ s =>
      .ok 0#32 s) = .next t) : WroteOnce s a (f (s.readReg a)) t := by
  rw [read32_undisturbed hu, Res.andThen_ok, write32_undisturbed (s := { s.record _ with rmw := _ }) hu,
    Res.andThen_ok, finish_eq, Res.conclude_ok _ (by simpa using hu.2)] at e
  cases e
  refine wroteOnce_of_write ?_ ?_ ?_ _ _ _
  · rfl
  · rfl
  · exact hu

/-- CLK_ENABLE of a node with a gate, undisturbed (R147). -/
theorem wroteOnce_clkEnable {g : Gate} (hg : gateOperand s.cfg a = .ok g) (e : exec (.clkEnable a) s = .next t) :
    WroteOnce s g.addr (s.readReg g.addr ||| bitMask g.bit) t := by
  simp only [exec, execClkEnable, hg] at e
  exact wroteOnce_readModifyWrite hu (f := (· ||| bitMask g.bit)) e

/-- CLK_DISABLE of a node with a gate, undisturbed (R148). -/
theorem wroteOnce_clkDisable {g : Gate} (hg : gateOperand s.cfg a = .ok g) (e : exec (.clkDisable a) s = .next t) :
    WroteOnce s g.addr (s.readReg g.addr &&& ~~~(bitMask g.bit)) t := by
  simp only [exec, execClkDisable, hg] at e
  exact wroteOnce_readModifyWrite hu (f := (· &&& ~~~(bitMask g.bit))) e

end

/-- A failure that the command word alone decides is all there is to the operation (60_exceptions.md R202, R210). -/
theorem exec_of_commandFailure {i : Instr} {s : State} {k : Failure} (hr : s.resetIn = none)
    (hk : commandFailure s.cfg i = some k) : exec i s = .next (s.raiseFailure k) := by
  have fails (k : Failure) : finish (.failed k s) = .next (s.raiseFailure k) := by
    rw [finish_eq, Res.conclude_failed k hr]
  cases i with
  | resolve a =>
    simp only [commandFailure] at hk
    split at hk <;> cases hk
    simp only [exec, execResolve, *]
  | oscSet a b =>
    simp only [commandFailure] at hk
    split at hk <;> cases hk
    simp only [exec, execOscSet, *]
  | pllLocked a =>
    simp only [commandFailure] at hk
    split at hk <;> cases hk
    simp only [exec, execPllLocked, *]
  | pllBypassed a =>
    simp only [commandFailure] at hk
    split at hk <;> cases hk
    simp only [exec, execPllBypassed, *]
  | statClear a =>
    simp only [commandFailure] at hk
    split at hk <;> cases hk
    simpa only [exec, execStatClear, if_neg ‹_›] using fails _
  | clkEnable a =>
    simp only [commandFailure] at hk
    split at hk <;> cases hk
    simp only [exec, execClkEnable, *]
  | clkDisable a =>
    simp only [commandFailure] at hk
    split at hk <;> cases hk
    simp only [exec, execClkDisable, *]
  | clkEnabled a =>
    simp only [commandFailure] at hk
    split at hk <;> cases hk
    simp only [exec, execClkEnabled, *]
  | settleWait => cases hk
  | _ => cases hk; exact fails _

/-- A gate operation that the command word does not fail names a node with a gate. -/
theorem gateOperand_of_commandFailure {c : Config} {a : Word} {i : Instr} (hi : i = .clkEnable a ∨ i = .clkDisable a)
    (hk : commandFailure c i = none) : ∃ g, gateOperand c a = .ok g := by
  cases hg : gateOperand c a with
  | ok g => exact ⟨g, rfl⟩
  | error k => rcases hi with rfl | rfl <;> simp [commandFailure, hg] at hk

/-- Settles O24: the second operation fails as the first, or makes the same write. -/
theorem writingOperationsAreIdempotent : Obligations.WritingOperationsAreIdempotent := by
  intro s t u i a hu _ hone hi e e'
  have plain {g : Gate} (hg : gateOperand s.cfg a = .ok g) : isStatusReg s.cfg g.addr = false :=
    not_isStatusReg_of_oneClass hone (gateAddr_mem_plainAddresses (gateOperand_ok.mp hg).2)
  cases hk : commandFailure s.cfg i with
  | some k =>
    rw [exec_of_commandFailure hu.2 hk] at e
    cases e
    rw [exec_of_commandFailure (s := s.raiseFailure k) hu.2 hk] at e'
    cases e'
    exact ⟨.of_mem rfl rfl, rfl⟩
  | none =>
    rcases hi with rfl | rfl | rfl
    · have hm : maskAllowed s.cfg a = true := by simpa [commandFailure] using hk
      have h := wroteOnce_statClear hu hm e
      have h' := wroteOnce_statClear h.undisturbed (h.cfg ▸ hm) e'
      rw [h.cfg] at h'
      exact ⟨h.keepsRegisters h', h'.status.trans h.status.symm⟩
    · obtain ⟨g, hg⟩ := gateOperand_of_commandFailure (.inl rfl) hk
      have h := wroteOnce_clkEnable hu hg e
      have h' := wroteOnce_clkEnable h.undisturbed (h.cfg ▸ hg) e'
      refine ⟨h.keepsRegisters_of_idem (f := (· ||| bitMask g.bit)) (fun w => ?_) (plain hg) h',
        h'.status.trans h.status.symm⟩
      rw [BitVec.or_assoc, BitVec.or_self]
    · obtain ⟨g, hg⟩ := gateOperand_of_commandFailure (.inr rfl) hk
      have h := wroteOnce_clkDisable hu hg e
      have h' := wroteOnce_clkDisable h.undisturbed (h.cfg ▸ hg) e'
      refine ⟨h.keepsRegisters_of_idem (f := (· &&& ~~~(bitMask g.bit))) (fun w => ?_) (plain hg) h',
        h'.status.trans h.status.symm⟩
      rw [BitVec.and_assoc, BitVec.and_self]

end Sys2Proof.Machine
end

section
/-!
SUPPORT. What a direct write of the host leaves in the registers and in the block (20_memory.md R54, R58, R61 (c);
42_settle_and_lifecycle.md R177 to R184; O60).
-/

namespace Sys2Proof.Machine

theorem mem_pllIds (p : PllId) : p ∈ PllId.all := by cases p <;> decide

/-- The three lock bits are at distinct positions (00_scope.md R9). -/
theorem lockedBit_ne {c : Config} (hwf : c.wf = true) {p q : PllId} (h : q ≠ p) :
    c.lockedBit.get q ≠ c.lockedBit.get p := by
  have hnodup : (PllId.all.map c.lockedBit.get).Nodup := (List.nodup_append.mp (nodup_statusBits hwf)).1
  exact fun heq => h (List.inj_on_of_nodup_map hnodup (mem_pllIds q) (mem_pllIds p) heq)

/-- A latch is at no lock bit's position. -/
theorem latch_ne_lockedBit {c : Config} (hwf : c.wf = true) {p q : PllId} {b : Nat}
    (hb : b = c.achBit.get p ∨ b = c.lostBit.get p) : b ≠ c.lockedBit.get q := by
  rintro rfl
  exact absurd (getLsbD_allowedMask_latch hwf hb) (by simp [getLsbD_allowedMask_lock hwf q])

/-- A lock bit is a bit of the status word as it is stored. -/
theorem lck_eq_word (s : State) (p : PllId) :
    s.lck p = (s.word s.cfg.statusAddr).getLsbD (s.cfg.lockedBit.get p) := by
  rw [State.lck, State.readReg_status]

theorem lck_congr {s t : State} (hc : t.cfg = s.cfg) (hm : t.mem = s.mem) (p : PllId) : t.lck p = s.lck p := by
  rw [lck_eq_word, lck_eq_word, hc, State.word_congr hm]

/-- A bit of the stored status word after the clock hardware replaced one. -/
theorem getLsbD_status_setStatusBit (s : State) (b i : Nat) (v : Bool) :
    ((s.setStatusBit b v).word s.cfg.statusAddr).getLsbD i =
      if i < 32 ∧ i = b then v else (s.word s.cfg.statusAddr).getLsbD i := by
  rw [State.word_setStatusBit, if_pos rfl, getLsbD_withBit]

/-- To replace the lock bit of one PLL leaves those of the others. -/
theorem lck_setStatusBit {s : State} (hwf : s.cfg.wf = true) (p q : PllId) (v : Bool) :
    (s.setStatusBit (s.cfg.lockedBit.get p) v).lck q = if q = p then v else s.lck q := by
  rw [lck_eq_word, State.setStatusBit_cfg, getLsbD_status_setStatusBit, lck_eq_word]
  by_cases h : q = p
  · subst h
    rw [if_pos ⟨lockedBit_lt hwf q, rfl⟩, if_pos rfl]
  · rw [if_neg fun hb => lockedBit_ne hwf h hb.2, if_neg h]

/-! One PLL's part of a host write -/

/-- The part that completes gives the PLL a lifecycle state; where bypass is asserted or lifted it gives it a lock bit
too, 0 where lifted (R178, R182). -/
theorem hostMovesPll_next {s t before after : State} {p : PllId} (e : s.hostMovesPll before after p = .next t) :
    ∃ l, (bypassAsserted before after p = false ∧ bypassLifted before after p = false ∧ t = s.setLife p l) ∨
      ∃ v d, (bypassAsserted before after p = true ∨ bypassLifted before after p = true) ∧
        (bypassLifted before after p = true → v = false) ∧
        t = { (s.setLife p l).setStatusBit (s.cfg.lockedBit.get p) v with draws := d } := by
  rcases s.hostMovesPll_cases before after p with ⟨-, he⟩ | ⟨l, -, ⟨ha, he⟩ | ⟨-, hl, he⟩ | ⟨ha, hl, he⟩⟩ <;>
    rw [he] at e <;> cases e
  · have hl := not_bypassLifted_of_bypassAsserted ha
    exact ⟨_, .inr ⟨_, _, .inl ha, by simp [hl], rfl⟩⟩
  · exact ⟨_, .inr ⟨false, s.draws, .inr hl, fun _ => rfl, rfl⟩⟩
  · exact ⟨l, .inl ⟨ha, hl, rfl⟩⟩

/-- It leaves the lifecycle of every other PLL. -/
theorem hostMovesPll_life {s t before after : State} {p q : PllId} (e : s.hostMovesPll before after p = .next t)
    (h : q ≠ p) : t.life.get q = s.life.get q := by
  obtain ⟨l, ⟨-, -, rfl⟩ | ⟨v, d, -, -, rfl⟩⟩ := hostMovesPll_next e
  · exact PerPll.get_set_other _ _ h
  · exact PerPll.get_set_other _ _ h

/-- It completes where the write is no illegal ratio change (R183). -/
theorem exists_hostMovesPll_next {s before after : State} {p : PllId}
    (h : before.ratio p = after.ratio p ∨ s.life.get p = .bypassed ∨ s.life.get p = .reconfiguring) :
    ∃ t, s.hostMovesPll before after p = .next t := by
  rcases s.hostMovesPll_cases before after p with ⟨hn, -⟩ | ⟨l, -, ⟨-, he⟩ | ⟨-, -, he⟩ | ⟨-, -, he⟩⟩
  · obtain ⟨hr, hl⟩ := lifeAfterRatio_none.mp hn
    have hr := of_decide_eq_true hr
    rcases h with h | h | h
    · exact absurd h hr
    · simp [h] at hl
    · simp [h] at hl
  · exact ⟨_, he⟩
  · exact ⟨_, he⟩
  · exact ⟨_, he⟩

/-- A direct write at an aligned address completes where it is no illegal ratio change of any PLL. -/
theorem exists_hostWrite_next {s : State} {addr v : Word} (ha : addr.toNat % 4 = 0)
    (h : ∀ p, s.ratio p = (s.writeReg addr v).ratio p ∨ s.life.get p = .bypassed ∨ s.life.get p = .reconfiguring) :
    ∃ t, s.hostWrite addr v = .next t := by
  have hlife (p : PllId) : (s.writeReg addr v).life.get p = s.life.get p := by rw [State.writeReg_life]
  obtain ⟨t1, e1⟩ := exists_hostMovesPll_next (s := s.writeReg addr v) (hlife .primary ▸ h .primary)
  have hlife1 : t1.life.get .peripheral = s.life.get .peripheral :=
    (hostMovesPll_life e1 (by decide)).trans (hlife _)
  obtain ⟨t2, e2⟩ := exists_hostMovesPll_next (s := t1) (hlife1 ▸ h .peripheral)
  have hlife2 : t2.life.get .memory = s.life.get .memory :=
    (hostMovesPll_life e2 (by decide)).trans ((hostMovesPll_life e1 (by decide)).trans (hlife _))
  obtain ⟨t, e3⟩ := exists_hostMovesPll_next (s := t2) (hlife2 ▸ h .memory)
  exact ⟨t, by simp only [State.hostWrite, if_pos ha, e1, e2, e3, andNext]⟩

/-! All PLLs' parts -/

/-- The parts of the PLLs `ps` of a host write took `s` to `t`: what they leave, and what lock bits they make. -/
structure HostMoved (before after : State) (ps : List PllId) (s t : State) : Prop where
  frame : t = { s with mem := t.mem, life := t.life, draws := t.draws }
  word : ∀ x, x ≠ s.cfg.statusAddr → t.word x = s.word x
  bit : ∀ b, (∀ p, b ≠ s.cfg.lockedBit.get p) →
    (t.word s.cfg.statusAddr).getLsbD b = (s.word s.cfg.statusAddr).getLsbD b
  lockKept : ∀ p, (p ∈ ps → bypassAsserted before after p = false ∧ bypassLifted before after p = false) →
    t.lck p = s.lck p
  lockLifted : ∀ p, p ∈ ps → bypassLifted before after p = true → t.lck p = false

theorem HostMoved.cfg {before after s t : State} {ps : List PllId} (h : HostMoved before after ps s t) :
    t.cfg = s.cfg := by rw [h.frame]

/-- One PLL's part. -/
theorem hostMoved_one {s t before after : State} {p : PllId} (hwf : s.cfg.wf = true)
    (e : s.hostMovesPll before after p = .next t) : HostMoved before after [p] s t := by
  obtain ⟨l, ⟨ha, hl, rfl⟩ | ⟨v, d, hal, hv, rfl⟩⟩ := hostMovesPll_next e
  · exact ⟨rfl, fun _ _ => rfl, fun _ _ => rfl, fun _ _ => rfl,
      fun q hq h => by simp [List.mem_singleton.mp hq, hl] at h⟩
  · refine ⟨rfl, fun x hx => (s.setLife p l).word_setWord_other _ hx, fun b hb => ?_, fun q hq => ?_, fun q hq h => ?_⟩
    · exact (getLsbD_status_setStatusBit (s.setLife p l) _ _ v).trans (if_neg fun h => hb p h.2)
    · have hne : q ≠ p := by
        rintro rfl
        obtain ⟨ha, hl⟩ := hq (List.mem_singleton.mpr rfl)
        simp [ha, hl] at hal
      exact (lck_setStatusBit (s := s.setLife p l) hwf p q v).trans (if_neg hne)
    · have heq : q = p := List.mem_singleton.mp hq
      rw [← hv (heq ▸ h)]
      exact (lck_setStatusBit (s := s.setLife p l) hwf p q v).trans (if_pos heq)

/-- The parts of some PLLs and then those of others. -/
theorem HostMoved.trans {before after s t u : State} {ps qs : List PllId} (h : HostMoved before after ps s t)
    (h' : HostMoved before after qs t u) : HostMoved before after (ps ++ qs) s u where
  frame := by rw [h'.frame, h.frame]
  word x hx := (h'.word x (h.cfg ▸ hx)).trans (h.word x hx)
  bit b hb := (h.cfg ▸ h'.bit b (h.cfg ▸ hb)).trans (h.bit b hb)
  lockKept p hp :=
    (h'.lockKept p fun hq => hp (List.mem_append_right _ hq)).trans
      (h.lockKept p fun hq => hp (List.mem_append_left _ hq))
  lockLifted p hp hl := by
    by_cases hq : p ∈ qs
    · exact h'.lockLifted p hq hl
    · rw [h'.lockKept p fun hq' => absurd hq' hq]
      exact h.lockLifted p ((List.mem_append.mp hp).resolve_right hq) hl

/-- A direct write that completes is a write of the register, then the parts of the three PLLs. -/
theorem hostMoved_of_hostWrite {s t : State} {addr v : Word} (hwf : s.cfg.wf = true)
    (e : s.hostWrite addr v = .next t) : HostMoved s (s.writeReg addr v) PllId.all (s.writeReg addr v) t := by
  obtain ⟨-, t1, t2, e1, e2, e3⟩ := State.hostWrite_next e
  have h1 := hostMoved_one (by simpa using hwf) e1
  have h2 := hostMoved_one (by simpa [h1.cfg] using hwf) e2
  have h3 := hostMoved_one (by simpa [h2.cfg, h1.cfg] using hwf) e3
  exact (h1.trans h2).trans h3

theorem bypassAsserted_eq_false {s w : State} {p : PllId} (hs : s.safeMode = true ∨ w.safeMode = false)
    (hb : s.bypassSelect p = true ∨ w.bypassSelect p = false) : bypassAsserted s w p = false := by
  rcases hs with hs | hs <;> rcases hb with hb | hb <;> simp [bypassAsserted, hs, hb]

theorem bypassLifted_eq_false {s w : State} {p : PllId} (h : s.byp p = false ∨ w.byp p = true) :
    bypassLifted s w p = false := by
  rcases h with h | h <;> simp [bypassLifted, h]

/-- A write of another register leaves the word of a register that holds no latch. -/
theorem writtenWord_other {c : Config} {a x : Word} (h : x ≠ a) (hs : x ≠ c.statusAddr) (v old : Word) :
    writtenWord c a v x old = old := by
  simp [writtenWord, h, hs]

/-! What a direct write leaves -/

section
variable {s t : State} {addr v : Word} (hwf : s.cfg.wf = true) (e : s.hostWrite addr v = .next t)
include hwf e

theorem cfg_of_hostWrite : t.cfg = s.cfg := by rw [(hostMoved_of_hostWrite hwf e).cfg, State.writeReg_cfg]

/-- A plain register reads after a direct write as after the write of its register alone. -/
theorem readReg_plain_of_hostWrite {x : Word} (hx : isStatusReg s.cfg x = false) :
    t.readReg x = writtenWord s.cfg addr v x (s.readReg x) := by
  have hm := hostMoved_of_hostWrite hwf e
  have hc := cfg_of_hostWrite hwf e
  have hne : x ≠ s.cfg.statusAddr := by simp_all [isStatusReg]
  rw [State.readReg_plain t (hc ▸ hx), hm.word x (by simpa using hne), State.word_writeReg, State.readReg_plain s hx]

/-- No PLL's part reaches a latch: it is as the write of its register left it (R58 (b)). -/
theorem latch_of_hostWrite {p : PllId} {b : Nat} (hb : b = s.cfg.achBit.get p ∨ b = s.cfg.lostBit.get p) :
    (t.readReg s.cfg.statusAddr).getLsbD b =
      ((s.readReg s.cfg.statusAddr).getLsbD b && !(decide (addr = s.cfg.statclrAddr) && v.getLsbD b)) := by
  have hm := hostMoved_of_hostWrite hwf e
  have hbit := hm.bit b fun q => by simpa using latch_ne_lockedBit hwf hb
  have ht := t.readReg_status
  have hw := (s.writeReg addr v).readReg_status
  rw [cfg_of_hostWrite hwf e] at ht
  rw [State.writeReg_cfg] at hw hbit
  rw [← latch_writeReg hwf addr v hb, ht, hw, hbit]

/-- A lock bit is 0 where the write lifts bypass. -/
theorem lck_of_hostWrite_lifting {p : PllId} (hs : s.byp p = true) (hw : (s.writeReg addr v).byp p = false) :
    t.lck p = false :=
  (hostMoved_of_hostWrite hwf e).lockLifted p (mem_pllIds p) (by simp [bypassLifted, hs, hw])

/-- A lock bit is as it was where the write neither asserts nor lifts bypass. -/
theorem lck_of_hostWrite_keeping {p : PllId} (hs : s.safeMode = true ∨ (s.writeReg addr v).safeMode = false)
    (hb : s.bypassSelect p = true ∨ (s.writeReg addr v).bypassSelect p = false)
    (hl : s.byp p = false ∨ (s.writeReg addr v).byp p = true) : t.lck p = s.lck p :=
  ((hostMoved_of_hostWrite hwf e).lockKept p fun _ => ⟨bypassAsserted_eq_false hs hb, bypassLifted_eq_false hl⟩).trans
    (lck_writeReg hwf addr v p)

/-- The busy bit is as it was: no PLL's part reaches its register. -/
theorem busy_of_hostWrite (hone : oneClass s.cfg = true) : t.busy = s.busy := by
  have hword := (hostMoved_of_hostWrite hwf e).word s.cfg.statAddr (by simpa using statAddr_ne_statusAddr hone)
  have hc := cfg_of_hostWrite hwf e
  rw [← busy_writeReg hone addr v, busy_eq_word (hc ▸ hone), busy_eq_word (by simpa using hone), hc,
    State.writeReg_cfg, hword]

end

/-- Settles O60: a direct read, the completion of a direct write, and what a direct write leaves. -/
theorem hostAccessesReachTheRegisters : Obligations.HostAccessesReachTheRegisters := by
  refine ⟨fun s addr ha => by rw [State.hostRead, if_pos ha], fun s addr v ha h => exists_hostWrite_next ha h, ?_⟩
  intro s t addr v hwf hone e
  refine ⟨fun hx => ?_, fun x hx hne => ?_, fun p b hb => latch_of_hostWrite hwf e hb,
    fun p => ⟨lck_of_hostWrite_lifting hwf e, lck_of_hostWrite_keeping hwf e⟩, busy_of_hostWrite hwf e hone, ?_⟩
  · rw [readReg_plain_of_hostWrite hwf e hx, writtenWord_plain hx]
  · have hs : x ≠ s.cfg.statusAddr := by simp_all [isStatusReg]
    rw [readReg_plain_of_hostWrite hwf e hx, writtenWord_other hne hs]
  · rw [(hostMoved_of_hostWrite hwf e).frame]
    simp [KeepsBlock, KeepsTransient]

end Sys2Proof.Machine
end

section
/-!
SUPPORT. An operation is a function of the answers to its reads (20_memory.md R66, R67; O46). Two runs are followed side
by side, part by part: while their reads are answered alike they issue the same events and come to the same result.
-/

namespace Sys2Proof.Machine

/-! How a part of an operation ran -/

/-- Inside an operation under the tables `c` and `osc`, with no reset coming. -/
structure Ready (c : Config) (osc : List Oscillator) (s : State) : Prop where
  cfg : s.cfg = c
  osc : s.osc = osc
  resetIn : s.resetIn = none

theorem Ready.pollHw {c : Config} {osc : List Oscillator} {s : State} (h : Ready c osc s) : Ready c osc s.pollHw :=
  ⟨by simp [h.cfg], by simp [h.osc], by simp [h.resetIn]⟩

theorem Ready.writeReg {c : Config} {osc : List Oscillator} {s : State} (h : Ready c osc s) (a v : Word) :
    Ready c osc (s.writeReg a v) :=
  ⟨by simp [h.cfg], by simp [h.osc], by simp [h.resetIn]⟩

/-- A part that began in `s` issued the events `es` and came to the result `o`. A part is none where a walk is stuck
(93_implementation_defined.md U7). -/
inductive Ran (c : Config) (osc : List Oscillator) {α : Type} (s : State) :
    Option (Res α) → List Event → Except Failure α → Prop where
  | ok {a : α} {u : State} {es : List Event} (hu : Ready c osc u) (he : Issued s u es) :
      Ran c osc s (some (.ok a u)) es (.ok a)
  | failed {k : Failure} {u : State} {es : List Event} (hu : Ready c osc u) (he : Issued s u es) :
      Ran c osc s (some (.failed k u)) es (.error k)

theorem Issued.unique {s t : State} {es es' : List Event} (h : Issued s t es) (h' : Issued s t es') : es = es' :=
  List.append_cancel_left (h.symm.trans h')

theorem Issued.append {s t u : State} {es es' : List Event} (h : Issued s t es) (h' : Issued t u es') :
    Issued s u (es ++ es') := by
  rw [Issued, h', h, List.append_assoc]

theorem answersOf_append (es es' : List Event) : answersOf (es ++ es') = answersOf es ++ answersOf es' :=
  List.filterMap_append

section
variable {c : Config} {osc : List Oscillator} {α β : Type} {s u : State}

theorem Ran.unique {r : Option (Res α)} {es es' : List Event} {o o' : Except Failure α} (h : Ran c osc s r es o)
    (h' : Ran c osc s r es' o') : es = es' ∧ o = o' := by
  cases h with
  | ok _ he => cases h' with | ok _ he' => exact ⟨he.unique he', rfl⟩
  | failed _ he => cases h' with | failed _ he' => exact ⟨he.unique he', rfl⟩

/-- A part that ran came to a result. -/
theorem Ran.isSome {r : Option (Res α)} {es : List Event} {o : Except Failure α} (h : Ran c osc s r es o) :
    ∃ r', r = some r' := by
  cases h with
  | ok _ _ => exact ⟨_, rfl⟩
  | failed _ _ => exact ⟨_, rfl⟩

/-- What ran after other events. -/
theorem Ran.after {r : Option (Res α)} {es es' : List Event} {o : Except Failure α} (he : Issued s u es)
    (h : Ran c osc u r es' o) : Ran c osc s r (es ++ es') o := by
  cases h with
  | ok hu he' => exact .ok hu (he.append he')
  | failed hu he' => exact .failed hu (he.append he')

end

/-! Parts that the answers to their reads determine -/

/-- In any two runs of the part, answers that are alike so far, however they go on, mean the same events and the same
result. -/
structure Determined (c : Config) (osc : List Oscillator) {α : Type} (f : State → Option (Res α)) : Prop where
  runs : ∀ s r, Ready c osc s → f s = some r → ∃ es o, Ran c osc s (some r) es o
  same : ∀ s t es es' o o' x y, Ready c osc s → Ready c osc t → Ran c osc s (f s) es o → Ran c osc t (f t) es' o' →
    answersOf es ++ x = answersOf es' ++ y → es = es' ∧ o = o'

/-- Do `r`, then `k`, where either may be stuck. -/
def thenPart {α β : Type} (r : Option (Res α)) (k : α → State → Option (Res β)) : Option (Res β) :=
  match r with
  | none => none
  | some (.ok a s) => k a s
  | some (.failed f s) => some (.failed f s)
  | some (.resetHit s) => some (.resetHit s)

/-- The result a walk comes to, if it comes to one. -/
def Walk.result? : Walk → Option (Res Word)
  | .done r => some r
  | .stuck _ => none

theorem some_andThen {α β : Type} (r : Res α) (k : α → State → Res β) :
    some (r.andThen k) = thenPart (some r) fun a s => some (k a s) := by cases r <;> rfl

theorem result?_thenWalk {α : Type} (r : Res α) (k : α → State → Walk) :
    (r.thenWalk k).result? = thenPart (some r) fun a s => (k a s).result? := by cases r <;> rfl

theorem result?_thenStage (w : Walk) (k : Word → State → Res Word) :
    (w.thenStage k).result? = thenPart w.result? fun a s => some (k a s) := by
  cases w with
  | done r => exact some_andThen r k
  | stuck f => rfl

/-- What follows a part that came to the result `o`: the events `es` and the result `o'` of the continuation, or nothing
after a failure. -/
def Follows (c : Config) (osc : List Oscillator) {α β : Type} (k : α → State → Option (Res β)) (o : Except Failure α)
    (es : List Event) (o' : Except Failure β) : Prop :=
  match o with
  | .ok a => ∃ u, Ready c osc u ∧ Ran c osc u (k a u) es o'
  | .error e => es = [] ∧ o' = .error e

section
variable {c : Config} {osc : List Oscillator} {α β : Type}

/-- A sequence ran as its first part and then what follows. -/
theorem Ran.of_thenPart {f : State → Option (Res α)} {k : α → State → Option (Res β)} (hf : Determined c osc f)
    (hk : ∀ a, Determined c osc (k a)) {s : State} {es : List Event} {o : Except Failure β} (hs : Ready c osc s)
    (h : Ran c osc s (thenPart (f s) k) es o) :
    ∃ es1 o1 es2, Ran c osc s (f s) es1 o1 ∧ es = es1 ++ es2 ∧ Follows c osc k o1 es2 o := by
  cases hfs : f s with
  | none => rw [hfs] at h; cases h
  | some r =>
    obtain ⟨es1, o1, h1⟩ := hf.runs s r hs hfs
    rw [hfs] at h
    cases h1 with
    | @ok a u _ hu he =>
      change Ran c osc s (k a u) es o at h
      obtain ⟨r', hr'⟩ := h.isSome
      obtain ⟨es2, o2, h2⟩ := (hk a).runs u r' hu hr'
      rw [← hr'] at h2
      obtain ⟨rfl, rfl⟩ := h.unique (.after he h2)
      exact ⟨es1, .ok a, es2, .ok hu he, rfl, u, hu, h2⟩
    | failed hu he =>
      obtain ⟨rfl, rfl⟩ := h.unique (.failed hu he)
      exact ⟨es, _, [], .failed hu he, (List.append_nil es).symm, rfl, rfl⟩

theorem Determined.thenPart {f : State → Option (Res α)} {k : α → State → Option (Res β)} (hf : Determined c osc f)
    (hk : ∀ a, Determined c osc (k a)) : Determined c osc fun s => thenPart (f s) k where
  runs s r hs h := by
    cases hfs : f s with
    | none => rw [hfs] at h; cases h
    | some r1 =>
      obtain ⟨es1, o1, h1⟩ := hf.runs s r1 hs hfs
      rw [hfs] at h
      cases h1 with
      | @ok a u _ hu he =>
        obtain ⟨es2, o2, h2⟩ := (hk a).runs u r hu h
        exact ⟨_, o2, h2.after he⟩
      | @failed k u _ hu he =>
        cases h
        exact ⟨es1, _, .failed hu he⟩
  same s t es es' o o' x y hs ht h h' hans := by
    obtain ⟨es1, o1, es2, h1, rfl, h2⟩ := h.of_thenPart hf hk hs
    obtain ⟨es1', o1', es2', h1', rfl, h2'⟩ := h'.of_thenPart hf hk ht
    rw [answersOf_append, answersOf_append, List.append_assoc, List.append_assoc] at hans
    obtain ⟨rfl, rfl⟩ := hf.same s t _ _ _ _ _ _ hs ht h1 h1' hans
    cases o1 with
    | ok a =>
      obtain ⟨u, hu, h2⟩ := h2
      obtain ⟨u', hu', h2'⟩ := h2'
      obtain ⟨rfl, rfl⟩ := (hk a).same u u' _ _ _ _ x y hu hu' h2 h2' (List.append_cancel_left hans)
      exact ⟨rfl, rfl⟩
    | error e =>
      obtain ⟨rfl, rfl⟩ := h2
      obtain ⟨rfl, rfl⟩ := h2'
      exact ⟨rfl, rfl⟩

/-- A part whose runs are known, as functions of the state it begins in. -/
theorem Determined.of_ran {f : State → Option (Res α)} (es : State → List Event) (o : State → Except Failure α)
    (hf : ∀ s, Ready c osc s → Ran c osc s (f s) (es s) (o s))
    (hsame : ∀ s t x y, answersOf (es s) ++ x = answersOf (es t) ++ y → es s = es t ∧ o s = o t) :
    Determined c osc f where
  runs s r hs h := ⟨es s, o s, h ▸ hf s hs⟩
  same s t es1 es2 o1 o2 x y hs ht h h' hans := by
    obtain ⟨rfl, rfl⟩ := h.unique (hf s hs)
    obtain ⟨rfl, rfl⟩ := h'.unique (hf t ht)
    exact hsame s t x y hans

theorem Determined.congr {f g : State → Option (Res α)} (hg : Determined c osc g)
    (h : ∀ s, Ready c osc s → f s = g s) : Determined c osc f where
  runs s r hs hr := hg.runs s r hs (h s hs ▸ hr)
  same s t es es' o o' x y hs ht h1 h2 := hg.same s t es es' o o' x y hs ht (h s hs ▸ h1) (h t ht ▸ h2)

/-- An update of the block that no later transfer or result depends on. -/
structure Quiet (c : Config) (osc : List Oscillator) (g : State → State) : Prop where
  ready : ∀ s, Ready c osc s → Ready c osc (g s)
  events : ∀ s, (g s).events = s.events

theorem Determined.ok {g : State → State} (hg : Quiet c osc g) (a : α) :
    Determined c osc fun s => some (.ok a (g s)) :=
  .of_ran (fun _ => []) (fun _ => .ok a) (fun s hs => .ok (hg.ready s hs) (by simp [Issued, hg.events]))
    fun _ _ _ _ _ => ⟨rfl, rfl⟩

theorem Determined.failed {g : State → State} (hg : Quiet c osc g) (k : Failure) :
    Determined c osc fun s => some (.failed k (g s) : Res α) :=
  .of_ran (fun _ => []) (fun _ => .error k) (fun s hs => .failed (hg.ready s hs) (by simp [Issued, hg.events]))
    fun _ _ _ _ _ => ⟨rfl, rfl⟩

theorem Determined.comp {f : State → Option (Res α)} {g : State → State} (hf : Determined c osc f)
    (hg : Quiet c osc g) : Determined c osc fun s => f (g s) where
  runs s r hs h := by
    obtain ⟨es, o, hr⟩ := hf.runs (g s) r (hg.ready s hs) h
    exact ⟨_, o, hr.after (es := []) (by simp [Issued, hg.events])⟩
  same s t es es' o o' x y hs ht h h' hans := by
    have back {u : State} {es : List Event} {o : Except Failure α} (h : Ran c osc u (f (g u)) es o) :
        Ran c osc (g u) (f (g u)) es o := h.after (es := []) (by simp [Issued, hg.events])
    exact hf.same (g s) (g t) es es' o o' x y (hg.ready s hs) (hg.ready t ht) (back h) (back h') hans

theorem Determined.andThen {f : State → Res α} {k : α → State → Res β} (hf : Determined c osc fun s => some (f s))
    (hk : ∀ a, Determined c osc fun s => some (k a s)) : Determined c osc fun s => some ((f s).andThen k) :=
  (hf.thenPart hk).congr fun _ _ => some_andThen _ _

end

/-! The parts of the operations -/

section
variable (c : Config) (osc : List Oscillator)

/-- A read: its event and its result are its answer (R53). -/
theorem determined_read32 (a : Word) : Determined c osc fun s => some (read32 a s) := by
  refine .of_ran (fun s => [.rd a (s.pollHw.readReg a)]) (fun s => .ok (s.pollHw.readReg a)) (fun s hs => ?_)
    fun s t x y hans => ?_
  · rw [read32_noReset a hs.resetIn]
    exact .ok ⟨hs.pollHw.cfg, hs.pollHw.osc, hs.pollHw.resetIn⟩ (by simp [Issued])
  · have hw : s.pollHw.readReg a = t.pollHw.readReg a := (List.cons.inj hans).1
    simp only [hw, and_self]

/-- A write has no answer (R54). -/
theorem determined_write32 (a v : Word) : Determined c osc fun s => some (write32 a v s) := by
  refine .of_ran (fun _ => [.wr a v]) (fun _ => .ok ()) (fun s hs => ?_) fun _ _ _ _ _ => ⟨rfl, rfl⟩
  rw [write32_noReset a v hs.resetIn]
  have hw := hs.pollHw.writeReg a v
  exact .ok ⟨hw.cfg, hw.osc, hw.resetIn⟩ (by simp [Issued])

theorem quiet_id : Quiet c osc id := ⟨fun _ h => h, fun _ => rfl⟩

theorem quiet_rmw (w : Word) : Quiet c osc fun s => { s with rmw := w } :=
  ⟨fun _ h => ⟨h.cfg, h.osc, h.resetIn⟩, fun _ => rfl⟩

theorem quiet_sp (n : Nat) : Quiet c osc fun s => { s with sp := n } :=
  ⟨fun _ h => ⟨h.cfg, h.osc, h.resetIn⟩, fun _ => rfl⟩

theorem quiet_iter (w : Word) : Quiet c osc fun s => { s with iter := w } :=
  ⟨fun _ h => ⟨h.cfg, h.osc, h.resetIn⟩, fun _ => rfl⟩

theorem quiet_visit (n : Nat) : Quiet c osc fun s => s.visit n :=
  ⟨fun _ h => ⟨h.cfg, h.osc, h.resetIn⟩, fun _ => rfl⟩

theorem quiet_descend : Quiet c osc State.descend := ⟨fun _ h => ⟨h.cfg, h.osc, h.resetIn⟩, fun _ => rfl⟩

theorem quiet_ascend : Quiet c osc State.ascend := ⟨fun _ h => ⟨h.cfg, h.osc, h.resetIn⟩, fun _ => rfl⟩

theorem quiet_countRead : Quiet c osc State.countRead := ⟨fun _ h => ⟨h.cfg, h.osc, h.resetIn⟩, fun _ => rfl⟩

theorem quiet_setAcc (v : Wide) : Quiet c osc fun s => s.setAcc v :=
  ⟨fun _ h => ⟨h.cfg, h.osc, h.resetIn⟩, fun _ => rfl⟩

theorem determined_setBits32 (a m : Word) : Determined c osc fun s => some (setBits32 a m s) :=
  (determined_read32 c osc a).andThen fun w => (determined_write32 c osc a (w ||| m)).comp (quiet_rmw c osc w)

theorem determined_clearBits32 (a m : Word) : Determined c osc fun s => some (clearBits32 a m s) :=
  (determined_read32 c osc a).andThen fun w => (determined_write32 c osc a (w &&& ~~~m)).comp (quiet_rmw c osc w)

theorem determined_readField (f : Field) : Determined c osc fun s => some (readField f s) :=
  (determined_read32 c osc f.addr).andThen fun _ => .ok (quiet_id c osc) _

theorem determined_selectParent (mux : Field) (menu : Menu) :
    Determined c osc fun s => some (selectParent mux menu s) :=
  (determined_readField c osc mux).andThen fun v => by
    cases menuLookup menu v.toNat with
    | none => exact .failed (quiet_id c osc) _
    | some m => exact .ok (quiet_id c osc) m

theorem determined_pllStage (fp n d : Word) : Determined c osc fun s => some (pllStage fp n d s) := by
  unfold pllStage
  dsimp only
  split
  · exact .failed (quiet_setAcc c osc _) _
  · exact .ok (quiet_setAcc c osc _) _

theorem determined_derivedStage (fp r : Word) : Determined c osc fun s => some (derivedStage fp r s) :=
  .ok (quiet_setAcc c osc _) _

/-- A part that is stuck never comes to a result. -/
theorem determined_stuck {α : Type} : Determined c osc fun _ => (none : Option (Res α)) where
  runs _ _ _ h := nomatch h
  same _ _ _ _ _ _ _ _ _ _ h := nomatch h

/-- The walk of RESOLVE, by induction on its fuel (R111). -/
theorem determined_resolveNode (fuel n : Nat) : Determined c osc fun s => (resolveNode fuel n s).result? := by
  induction fuel generalizing n with
  | zero => exact determined_stuck c osc
  | succ fuel ih =>
    have below (m : Nat) {k : Word → State → Res Word} (hk : ∀ fp, Determined c osc fun s => some (k fp s)) :
        Determined c osc fun s => ((resolveNode fuel m s.descend).thenStage k).result? :=
      (((ih m).comp (quiet_descend c osc)).thenPart hk).congr fun _ _ => result?_thenStage _ _
    have walk (mux : Field) (menu : Menu) {k : Word → State → Res Word}
        (hk : ∀ fp, Determined c osc fun s => some (k fp s)) :
        Determined c osc fun s => ((selectParent mux menu (s.visit n)).thenWalk fun m s =>
          (resolveNode fuel m s.descend).thenStage k).result? :=
      (((determined_selectParent c osc mux menu).comp (quiet_visit c osc n)).thenPart fun m => below m hk).congr
        fun _ _ => result?_thenWalk _ _
    cases hnode : c.topo[n]? with
    | none =>
      refine (determined_stuck c osc).congr fun s hs => ?_
      simp only [resolveNode, State.visit_cfg, hs.cfg, hnode, Walk.result?]
    | some node =>
      cases node with
      | osc i =>
        cases ho : osc[i]? with
        | none =>
          refine (determined_stuck c osc).congr fun s hs => ?_
          simp only [resolveNode, State.visit_cfg, State.visit_osc, hs.cfg, hs.osc, hnode, ho, Walk.result?]
        | some o =>
          refine (Determined.ok (quiet_visit c osc n) o.freq).congr fun s hs => ?_
          simp only [resolveNode, State.visit_cfg, State.visit_osc, hs.cfg, hs.osc, hnode, ho, Walk.result?]
      | pll p mux menu numer denom =>
        have stage (fp : Word) : Determined c osc fun s => some ((readField numer s.ascend).andThen fun rawN s =>
            (readField denom s).andThen fun rawD s => pllStage fp rawN rawD s) :=
          ((determined_readField c osc numer).comp (quiet_ascend c osc)).andThen fun rawN =>
            (determined_readField c osc denom).andThen fun rawD => determined_pllStage c osc fp rawN rawD
        refine (walk mux menu stage).congr fun s hs => ?_
        simp only [resolveNode, State.visit_cfg, hs.cfg, hnode]
      | derived mux menu div gate =>
        have stage (fp : Word) : Determined c osc fun s => some ((readField div s.ascend).andThen fun rawR s =>
            derivedStage fp rawR s) :=
          ((determined_readField c osc div).comp (quiet_ascend c osc)).andThen fun rawR =>
            determined_derivedStage c osc fp rawR
        refine (walk mux menu stage).congr fun s hs => ?_
        simp only [resolveNode, State.visit_cfg, hs.cfg, hnode]

/-- The poll loop of SETTLE_WAIT, by induction on the reads permitted (R171). -/
theorem determined_settleLoop (n : Nat) : Determined c osc fun s => some (settleLoop n s) := by
  induction n with
  | zero => exact .failed (quiet_id c osc) _
  | succ n ih =>
    have next (w : Word) : Determined c osc fun s =>
        some (if w.getLsbD s.cfg.busyBit then settleLoop n s.countRead else .ok 0#32 s.countRead) := by
      cases hw : w.getLsbD c.busyBit with
      | true => exact (ih.comp (quiet_countRead c osc)).congr fun s hs => by simp only [hs.cfg, hw, if_true]
      | false =>
        exact (Determined.ok (quiet_countRead c osc) 0#32).congr fun s hs => by
          simp only [hs.cfg, hw, Bool.false_eq_true, if_false]
    exact ((determined_read32 c osc c.statAddr).andThen next).congr fun s hs => by simp only [settleLoop, hs.cfg]

end

/-! Operations -/

/-- The operation that ended in `t` answered `o` (30_encoding.md R82, 60_exceptions.md R201). -/
def Answered (t : State) (o : Except Failure Word) : Prop :=
  match o with
  | .ok v => AnsweredOk t v
  | .error k => AnsweredFailure t k.code

/-- The end of an operation answers the result that its last part came to. -/
theorem Ran.conclude {c : Config} {osc : List Oscillator} {s : State} {r : Res Word} {es : List Event}
    {o : Except Failure Word} (h : Ran c osc s (some r) es o) : Issued s r.conclude es ∧ Answered r.conclude o := by
  cases h with
  | @ok v u _ hu he =>
    rw [Res.conclude_ok v hu.resetIn]
    exact ⟨he, rfl, rfl, rfl, rfl⟩
  | @failed k u _ hu he =>
    rw [Res.conclude_failed k hu.resetIn]
    exact ⟨he, rfl, rfl, rfl⟩

/-- The operation is a part that its answers determine, and then its end. -/
def ExecDetermined (c : Config) (osc : List Oscillator) (i : Instr) : Prop :=
  ∃ f, Determined c osc f ∧ ∀ s t, Ready c osc s → exec i s = .next t → ∃ r, f s = some r ∧ t = r.conclude

theorem ExecDetermined.of_finish {c : Config} {osc : List Oscillator} {i : Instr} {f : State → Res Word}
    (hf : Determined c osc fun s => some (f s)) (h : ∀ s, Ready c osc s → exec i s = finish (f s)) :
    ExecDetermined c osc i := by
  refine ⟨_, hf, fun s t hs e => ⟨f s, rfl, ?_⟩⟩
  rw [h s hs] at e
  cases e
  rfl

/-- An operation that the command word fails makes no transfer. -/
theorem ExecDetermined.of_commandFailure {c : Config} {osc : List Oscillator} {i : Instr} {k : Failure}
    (hk : commandFailure c i = some k) : ExecDetermined c osc i :=
  .of_finish (.failed (quiet_id c osc) k) fun s hs => by
    rw [exec_of_commandFailure hs.resetIn (hs.cfg ▸ hk), finish_eq, id, Res.conclude_failed k hs.resetIn]

/-- Every operation but OSC_SET, which changes the table. -/
theorem execDetermined (c : Config) (osc : List Oscillator) {i : Instr} (hi : ∀ a b, i ≠ .oscSet a b) :
    ExecDetermined c osc i := by
  have ends (v : Word) : Determined c osc fun s => some (.ok v s) := .ok (quiet_id c osc) v
  cases i with
  | resolve a =>
    cases hn : nodeId? c a with
    | none => exact .of_commandFailure (k := .badArgument) (by simp only [commandFailure, hn])
    | some n =>
      refine ⟨_, (determined_resolveNode c osc (c.maxDepth + 1) n).comp (quiet_sp c osc 0), fun s t hs e => ?_⟩
      obtain ⟨rfl, -, -⟩ := hs
      simp only [exec, execResolve, hn] at e
      cases hw : resolveNode (s.cfg.maxDepth + 1) n { s with sp := 0 } with
      | stuck f => rw [hw] at e; cases e
      | done r => rw [hw] at e; cases e; exact ⟨r, rfl, rfl⟩
  | oscSet a b => exact absurd rfl (hi a b)
  | pllLocked a =>
    cases hp : pllIndex? a with
    | none => exact .of_commandFailure (k := .badArgument) (by simp only [commandFailure, hp])
    | some p =>
      have bit (w : Word) : Determined c osc fun s => some (.ok (boolWord (w.getLsbD (s.cfg.lockedBit.get p))) s) :=
        (ends _).congr fun s hs => by rw [hs.cfg]
      exact .of_finish ((determined_read32 c osc c.statusAddr).andThen bit) fun s hs => by
        simp only [exec, execPllLocked, hs.cfg, hp]
  | pllBypassed a =>
    cases hp : pllIndex? a with
    | none => exact .of_commandFailure (k := .badArgument) (by simp only [commandFailure, hp])
    | some p =>
      have bits (x y : Word) : Determined c osc fun s =>
          some (.ok (boolWord (x.getLsbD s.cfg.safemodeBit || y.getLsbD (s.cfg.bypassBit.get p))) s) :=
        (ends _).congr fun s hs => by rw [hs.cfg]
      have second (x : Word) : Determined c osc fun s => some ((read32 s.cfg.bypassAddr s).andThen fun y s =>
          .ok (boolWord (x.getLsbD s.cfg.safemodeBit || y.getLsbD (s.cfg.bypassBit.get p))) s) :=
        ((determined_read32 c osc c.bypassAddr).andThen (bits x)).congr fun s hs => by rw [hs.cfg]
      exact .of_finish ((determined_read32 c osc c.ctrlAddr).andThen second) fun s hs => by
        simp only [exec, execPllBypassed, hs.cfg, hp]
  | statClear a =>
    cases hm : maskAllowed c a with
    | false => exact .of_commandFailure (k := .badArgument) (by simp [commandFailure, hm])
    | true =>
      exact .of_finish ((determined_write32 c osc c.statclrAddr a).andThen fun _ => ends 0#32) fun s hs => by
        simp only [exec, execStatClear, hs.cfg, hm, if_true]
  | clkEnable a =>
    cases hg : gateOperand c a with
    | error k => exact .of_commandFailure (k := k) (by simp only [commandFailure, hg])
    | ok g =>
      exact .of_finish ((determined_setBits32 c osc g.addr (bitMask g.bit)).andThen fun _ => ends 0#32) fun s hs => by
        simp only [exec, execClkEnable, hs.cfg, hg]
  | clkDisable a =>
    cases hg : gateOperand c a with
    | error k => exact .of_commandFailure (k := k) (by simp only [commandFailure, hg])
    | ok g =>
      exact .of_finish ((determined_clearBits32 c osc g.addr (bitMask g.bit)).andThen fun _ => ends 0#32) fun s hs => by
        simp only [exec, execClkDisable, hs.cfg, hg]
  | clkEnabled a =>
    cases hg : gateOperand c a with
    | error k => exact .of_commandFailure (k := k) (by simp only [commandFailure, hg])
    | ok g =>
      exact .of_finish ((determined_read32 c osc g.addr).andThen fun w => ends (boolWord (w.getLsbD g.bit)))
        fun s hs => by simp only [exec, execClkEnabled, hs.cfg, hg]
  | settleWait =>
    exact .of_finish ((determined_settleLoop c osc c.settleBound).comp (quiet_iter c osc 0#32)) fun s hs => by
      obtain ⟨rfl, -, -⟩ := hs
      rfl
  | _ => exact .of_commandFailure (k := .badArgument) rfl

/-- No failure has the code of success (60_exceptions.md R201). -/
theorem Failure.code_ne_zero (k : Failure) : k.code ≠ 0#3 := by cases k <;> decide

/-- Two operations that answered the same result. -/
theorem Answered.same {t1 t2 : State} {o : Except Failure Word} (h1 : Answered t1 o) (h2 : Answered t2 o) :
    t1.status = t2.status ∧ (t1.status = 0#3 → t1.value = t2.value) := by
  cases o with
  | ok v =>
    obtain ⟨hs1, hv1, -⟩ := h1
    obtain ⟨hs2, hv2, -⟩ := h2
    exact ⟨hs1.trans hs2.symm, fun _ => hv1.trans hv2.symm⟩
  | error k =>
    obtain ⟨hs1, -⟩ := h1
    obtain ⟨hs2, -⟩ := h2
    exact ⟨hs1.trans hs2.symm, fun h0 => absurd (hs1.symm.trans h0) k.code_ne_zero⟩

/-- OSC_SET of an oscillator of the table makes no transfer (40_resolver.md R125). -/
theorem exec_oscSet {s : State} {a b : Word} {n : Nat} (hr : s.resetIn = none) (hn : oscIndex? s.cfg a = some n) :
    exec (.oscSet a b) s = .next ((s.setOscFreq n b).succeed 0#32) := by
  simp only [exec, execOscSet, hn, finish_eq]
  rw [Res.conclude_ok _ (by simpa using hr)]

/-- An operation that left the record of events as it was issued none. -/
theorem Issued.eq_nil {s t : State} {es : List Event} (h : Issued s t es) (he : t.events = s.events) : es = [] :=
  h.unique (he.trans (List.append_nil _).symm)

/-- Settles O46: OSC_SET by its arguments alone, every other operation by the answers to its reads. -/
theorem answersDetermineTheOutcome : Obligations.AnswersDetermineTheOutcome := by
  intro i s1 s2 t1 t2 es1 es2 hr1 hr2 hc ho e1 e2 h1 h2 hans
  by_cases hi : ∀ a b, i ≠ .oscSet a b
  · obtain ⟨f, hf, hexec⟩ := execDetermined s1.cfg s1.osc hi
    have hs1 : Ready s1.cfg s1.osc s1 := ⟨rfl, rfl, hr1⟩
    have hs2 : Ready s1.cfg s1.osc s2 := ⟨hc.symm, ho.symm, hr2⟩
    obtain ⟨r1, hf1, rfl⟩ := hexec s1 t1 hs1 e1
    obtain ⟨r2, hf2, rfl⟩ := hexec s2 t2 hs2 e2
    obtain ⟨es1', o1, ran1⟩ := hf.runs s1 r1 hs1 hf1
    obtain ⟨es2', o2, ran2⟩ := hf.runs s2 r2 hs2 hf2
    obtain rfl := h1.unique ran1.conclude.1
    obtain rfl := h2.unique ran2.conclude.1
    obtain ⟨hes, rfl⟩ := hf.same s1 s2 es1 es2 o1 o2 [] [] hs1 hs2 (hf1 ▸ ran1) (hf2 ▸ ran2)
      (congrArg (· ++ []) hans)
    obtain ⟨hstatus, hvalue⟩ := ran1.conclude.2.same ran2.conclude.2
    exact ⟨hes, hstatus, hvalue, by rw [exec_keeps_osc hi hr1 e1, exec_keeps_osc hi hr2 e2, ho]⟩
  · obtain ⟨a, b, rfl⟩ : ∃ a b, i = .oscSet a b := by simpa using hi
    cases hn : oscIndex? s1.cfg a with
    | none =>
      have hk : commandFailure s1.cfg (.oscSet a b) = some .badArgument := by simp only [commandFailure, hn]
      rw [exec_of_commandFailure hr1 hk] at e1
      rw [exec_of_commandFailure hr2 (hc ▸ hk)] at e2
      cases e1
      cases e2
      exact ⟨(h1.eq_nil rfl).trans (h2.eq_nil rfl).symm, rfl, fun h0 => absurd h0 Failure.badArgument.code_ne_zero, ho⟩
    | some n =>
      rw [exec_oscSet hr1 hn] at e1
      rw [exec_oscSet hr2 (hc ▸ hn)] at e2
      cases e1
      cases e2
      exact ⟨(h1.eq_nil rfl).trans (h2.eq_nil rfl).symm, rfl, fun _ => rfl, by simp [ho]⟩

end Sys2Proof.Machine
end

section
/-!
SUPPORT. The opcode map, read in both directions (30_encoding.md R81, R85, R86, R88, R89; O1 to O4).
-/

namespace Sys2Proof

/-- A decoded command word with its fields packed is the operation of the opcode, with the arguments (R81). -/
theorem decode_packCommand (op : BitVec 4) (a b : Word) : decode (packCommand op a b) = decodeFields op a b := by
  rw [decode, Laws.opField_packCommand, Laws.aField_packCommand, Laws.bField_packCommand]

/-- The opcode of an instruction selects its row, and its own fields give its arguments (R85). -/
theorem decodeFields_fields (i : Instr) : decodeFields i.opcode i.fieldA i.fieldB = i := by
  cases i <;> rfl

/-- Every instruction comes back from its encoding. -/
theorem decode_encode (i : Instr) : decode (encode i) = i := by
  rw [encode, decode_packCommand, decodeFields_fields]

/-! What the sixteen rows give back: the opcode always, an argument where the row has it -/

/-- The operation that an opcode selects has that opcode: the sixteen rows of R85 and R88. -/
theorem opcode_decodeFields (op : BitVec 4) (a b : Word) : (decodeFields op a b).opcode = op := by
  obtain ⟨n, hn⟩ := op
  interval_cases n <;> rfl

/-- The first argument is read by the opcodes 1 to 8 (R89). -/
theorem fieldA_decodeFields {op : BitVec 4} (a b : Word) (h1 : 1 ≤ op.toNat) (h8 : op.toNat ≤ 8) :
    (decodeFields op a b).fieldA = a := by
  obtain ⟨n, hn⟩ := op
  change 1 ≤ n at h1
  change n ≤ 8 at h8
  interval_cases n <;> rfl

/-- The second argument is read by OSC_SET (R89). -/
theorem fieldB_decodeFields {op : BitVec 4} (a b : Word) (h : op.toNat = 2) : (decodeFields op a b).fieldB = b := by
  obtain rfl : op = 2#4 := BitVec.eq_of_toNat_eq h
  rfl

/-- The mnemonic is that of the row: no argument takes part in it (R86). -/
theorem mnemonic_decodeFields (op : BitVec 4) (a a' b b' : Word) :
    (decodeFields op a b).mnemonic = (decodeFields op a' b').mnemonic := by
  obtain ⟨n, hn⟩ := op
  interval_cases n <;> rfl

/-- No row but OSC_SET has a second argument (R89). -/
theorem decodeFields_congr_b {op : BitVec 4} (h : op ≠ 2#4) (a b b' : Word) :
    decodeFields op a b = decodeFields op a b' := by
  obtain ⟨n, hn⟩ := op
  have hne : n ≠ 2 := by
    rintro rfl
    exact h rfl
  rcases Nat.lt_or_gt_of_ne hne with hlt | hgt
  · interval_cases n <;> rfl
  · interval_cases n <;> rfl

/-- SETTLE_WAIT and the reserved opcodes have no argument (R88, R89). -/
theorem decodeFields_congr {op : BitVec 4} (h : op = 0#4 ∨ 9#4 ≤ op) (a a' b b' : Word) :
    decodeFields op a b = decodeFields op a' b' := by
  rcases h with rfl | h9
  · rfl
  · obtain ⟨n, hn⟩ := op
    change 9 ≤ n at h9
    interval_cases n <;> rfl

/-- Settles O2: encoding packs the fields, and decoding gives back those that its row has. -/
theorem decodeAndEncodeAgree : Obligations.DecodeAndEncodeAgree := by
  refine ⟨decode_encode, fun cw => ?_⟩
  obtain ⟨hop, ha, hb⟩ := Laws.EncodedFields.of_pack (decode cw)
  rw [hop, ha, hb]
  exact ⟨opcode_decodeFields _ _ _, fieldA_decodeFields _ _, fieldB_decodeFields _ _⟩

/-- Settles O1: seven closed words. -/
theorem specWordsDecode : Obligations.SpecWordsDecode := by
  unfold Obligations.SpecWordsDecode
  decide

/-- Settles O3: the row of an opcode fixes opcode and mnemonic. -/
theorem opcodeAloneSelects : Obligations.OpcodeAloneSelects := by
  refine ⟨fun cw => opcode_decodeFields _ _ _, fun cw cw' h => ?_⟩
  rw [decode, decode, h]
  exact mnemonic_decodeFields _ _ _ _ _

/-- Settles O4: the arguments that a row does not have are dropped. -/
theorem unusedFieldsIgnored : Obligations.UnusedFieldsIgnored := by
  intro op a a' b b'
  simp only [decode_packCommand]
  exact ⟨fun h => decodeFields_congr_b h a b b', fun h => decodeFields_congr h a a' b b'⟩

end Sys2Proof
end

section
/-!
SUPPORT. The sequencer: what the step takes, and how every operation ends (10_state.md R25, 30_encoding.md R80 to R83,
R88; O5, O6, O9, O28).
-/

namespace Sys2Proof.Machine

/-! What the step takes -/

/-- In RUN the step is the latched operation (R83). -/
theorem step_of_run {s : State} (hwf : s.cfg.wf = true) (hp : s.phase = .run) : step s = exec s.latched s := by
  simp only [step, State.guardedAdvance, hwf, if_true, State.advance, hp]

/-- In IDLE the step takes the oldest input (R80). -/
theorem step_of_input {s : State} {i : Input} {rest : List Input} (hwf : s.cfg.wf = true) (hp : s.phase = .idle)
    (hi : s.inputs = i :: rest) : step s = { s with inputs := rest }.takeInput i := by
  simp only [step, State.guardedAdvance, hwf, if_true, State.advance, hp, hi]

/-- Settles O5: the input is a command, which is accepted and run. -/
theorem stepRunsTheDecodedCommand : Obligations.StepRunsTheDecodedCommand := fun _ _ _ _ hwf hp hi =>
  step_of_input hwf hp hi

/-! How every operation ends -/

/-- The basic updates of every operation leave the pending inputs waiting. -/
theorem stable_inputs (c : Config) (i : Instr) (inputs : List Input) :
    Stable c i fun u => u.cfg = c ∧ u.inputs = inputs where
  cfg _ h := h.1
  poll s h := by simpa using h
  countdown _ _ _ h := h
  read _ _ _ h := h
  write s a v _ _ h := by simpa using h
  rmw _ _ h := h
  acc _ _ h := h
  sp _ _ h := h
  stk _ _ h := h
  iter _ _ h := h
  osc _ _ _ _ _ h := h

/-- Every operation leaves the pending inputs waiting and ends IDLE, reset or not (R83). -/
theorem exec_inputs_phase {i : Instr} {s t : State} (e : exec i s = .next t) :
    t.inputs = s.inputs ∧ t.phase = .idle := by
  obtain ⟨u, ⟨-, hu⟩, ⟨-, v, rfl⟩ | ⟨-, k, rfl⟩ | ⟨-, rfl⟩⟩ := (stable_inputs s.cfg i s.inputs).exec ⟨rfl, rfl⟩ e
  · exact ⟨hu, rfl⟩
  · exact ⟨hu, rfl⟩
  · exact ⟨hu, rfl⟩

/-- Settles O6: a step in RUN is the latched operation and no more. -/
theorem runningBlockAcceptsNothing : Obligations.RunningBlockAcceptsNothing := by
  intro s t hwf hp e
  have hstep := step_of_run hwf hp
  exact ⟨hstep, exec_inputs_phase (hstep ▸ e)⟩

/-- The basic updates of every operation schedule no reset. -/
theorem stable_noReset (c : Config) (i : Instr) : Stable c i fun u => u.cfg = c ∧ u.resetIn = none where
  cfg _ h := h.1
  poll s h := by simpa using h
  countdown s k hk h := by simp [h.2] at hk
  read _ _ _ h := h
  write s a v _ _ h := by simpa using h
  rmw _ _ h := h
  acc _ _ h := h
  sp _ _ h := h
  stk _ _ h := h
  iter _ _ h := h
  osc _ _ _ _ _ h := h

/-- An operation with no reset coming ends in a success or in a failure. -/
theorem exec_responds {i : Instr} {s t : State} (hr : s.resetIn = none) (e : exec i s = .next t) :
    ∃ u : State, (∃ v, t = u.succeed v) ∨ ∃ k, t = u.raiseFailure k := by
  obtain ⟨u, ⟨-, hu⟩, ⟨-, h⟩ | ⟨-, h⟩ | ⟨hne, -⟩⟩ := (stable_noReset s.cfg i).exec ⟨rfl, hr⟩ e
  · exact ⟨u, .inl h⟩
  · exact ⟨u, .inr h⟩
  · exact absurd hu hne

/-- Settles O9: success and failure both respond, with a code of R201. -/
theorem everyOperationResponds : Obligations.EveryOperationResponds := by
  intro i s t hr e
  obtain ⟨u, ⟨v, rfl⟩ | ⟨k, rfl⟩⟩ := exec_responds hr e
  · exact ⟨rfl, rfl, Nat.zero_le 4⟩
  · exact ⟨rfl, rfl, k.code_le⟩

/-! The reserved opcodes -/

/-- A failure is answered with its code, and changes nothing but the response (60_exceptions.md R209). -/
theorem raiseFailure_frame (s : State) (k : Failure) :
    AnsweredFailure (s.raiseFailure k) k.code ∧ Issued s (s.raiseFailure k) [] ∧ KeepsBlock s (s.raiseFailure k) ∧
      KeepsTransient s (s.raiseFailure k) ∧ KeepsRegisters s (s.raiseFailure k) ∧
      KeepsSurroundings s (s.raiseFailure k) :=
  ⟨⟨rfl, rfl, rfl⟩, (List.append_nil _).symm, ⟨rfl, rfl, rfl, rfl, rfl⟩, ⟨rfl, rfl, rfl, rfl, rfl⟩, .of_mem rfl rfl,
    ⟨rfl, rfl, rfl, rfl, rfl⟩⟩

/-- The reserved opcodes are no operation in any configuration (R88). -/
theorem commandFailure_reserved (c : Config) {op : BitVec 4} (h : op = 0#4 ∨ 10#4 ≤ op) (a b : Word) :
    commandFailure c (decodeFields op a b) = some .badArgument := by
  rcases h with rfl | h10
  · rfl
  · obtain ⟨n, hn⟩ := op
    change 10 ≤ n at h10
    interval_cases n <;> rfl

/-- Settles O28: the opcode alone decides the failure. -/
theorem reservedOpcodesAnswerBadArgument : Obligations.ReservedOpcodesAnswerBadArgument := by
  intro s op a b hr h
  rw [decode_packCommand]
  exact ⟨s.raiseFailure .badArgument, exec_of_commandFailure hr (commandFailure_reserved s.cfg h a b),
    raiseFailure_frame s .badArgument⟩

end Sys2Proof.Machine
end

section
/-!
SUPPORT. The pseudo-operations with no move of the hardware scheduled (30_encoding.md R94, notes/assumptions/15.md): the
PLL operations that they ask (O57, O59), and CLEAR_ALL (O58).
-/

namespace Sys2Proof.Machine

/-! Operands and one-bit answers -/

/-- A PLL's operand names it (R87). -/
@[simp] theorem pllIndex?_pllOperand (p : PllId) : pllIndex? (pllOperand p) = some p := by cases p <;> rfl

/-- A one-bit answer is 1 exactly where the bit is (00_scope.md R11). -/
@[simp] theorem boolWord_beq_one (b : Bool) : (boolWord b == 1#32) = b := by cases b <;> rfl

@[simp] theorem boolWord_eq_one (b : Bool) : boolWord b = 1#32 ↔ b = true := by rw [← beq_iff_eq, boolWord_beq_one]

/-- The mask of every latch names no other bit (41_pll_monitor.md R144). -/
theorem maskAllowed_allowedMask (c : Config) : maskAllowed c (allowedMask c) = true := by
  rw [maskAllowed, BitVec.and_not_self]
  rfl

/-! The operations asked, undisturbed -/

section
variable {s : State} (hu : Undisturbed s)
include hu

/-- PLL_LOCKED answers the lock bit (R141). -/
theorem exec_pllLocked_undisturbed (p : PllId) :
    exec (.pllLocked (pllOperand p)) s =
      .next ((s.record (.rd s.cfg.statusAddr (s.readReg s.cfg.statusAddr))).succeed (boolWord (s.lck p))) := by
  simp only [exec, execPllLocked, pllIndex?_pllOperand, read32_undisturbed hu, Res.andThen_ok, finish_eq]
  rw [Res.conclude_ok _ (by simpa using hu.2)]
  rfl

/-- PLL_BYPASSED answers the or of the two bits (R142). -/
theorem exec_pllBypassed_undisturbed (p : PllId) :
    exec (.pllBypassed (pllOperand p)) s =
      .next (((s.record (.rd s.cfg.ctrlAddr (s.readReg s.cfg.ctrlAddr))).record
        (.rd s.cfg.bypassAddr (s.readReg s.cfg.bypassAddr))).succeed (boolWord (s.byp p))) := by
  simp only [exec, execPllBypassed, pllIndex?_pllOperand, read32_undisturbed hu, Res.andThen_ok, State.record_cfg,
    read32_undisturbed (s := s.record _) hu, finish_eq]
  rw [Res.conclude_ok _ (by simpa using hu.2)]
  rfl

/-- STAT_CLEAR of an allowed mask writes it (R144). -/
theorem exec_statClear_undisturbed {a : Word} (hm : maskAllowed s.cfg a = true) :
    exec (.statClear a) s =
      .next (((s.writeReg s.cfg.statclrAddr a).record (.wr s.cfg.statclrAddr a)).succeed 0#32) := by
  simp only [exec, execStatClear, hm, if_true, write32_undisturbed hu, Res.andThen_ok, finish_eq]
  rw [Res.conclude_ok _ (by simpa using hu.2)]

end

/-! An operation that a pseudo-operation asks -/

/-- A pseudo-operation goes on with the value of an operation that succeeds (R94). -/
theorem ask_of_succeed {α : Type} {i : Instr} {s u : State} {v : Word}
    (e : exec i (s.accept (encode i) none) = .next (u.succeed v)) (k : Word → State → MacroEnd α) :
    ask i s k = k v (u.succeed v) := by
  simp only [ask, e, State.succeed_resp, State.succeed_status, State.succeed_value, if_true]

/-- A command accepted with no move of the hardware scheduled and no reset runs undisturbed. -/
theorem undisturbed_accept {s : State} (h : s.hw = []) (cw : CommandWord) : Undisturbed (s.accept cw none) := ⟨h, rfl⟩

/-- From `s` to `t` registers were read and none was written, and no move of the hardware is scheduled. -/
structure OnlyRead (s t : State) : Prop where
  cfg : t.cfg = s.cfg
  mem : t.mem = s.mem
  hw : t.hw = []

namespace OnlyRead

variable {s t u : State}

theorem refl (h : s.hw = []) : OnlyRead s s := ⟨rfl, rfl, h⟩

theorem trans (h : OnlyRead s t) (h' : OnlyRead t u) : OnlyRead s u :=
  ⟨h'.cfg.trans h.cfg, h'.mem.trans h.mem, h'.hw⟩

theorem keepsRegisters (h : OnlyRead s t) : KeepsRegisters s t := .of_mem h.cfg h.mem

theorem lck (h : OnlyRead s t) (p : PllId) : t.lck p = s.lck p := lck_congr h.cfg h.mem p

end OnlyRead

/-- A pseudo-operation that asks PLL_LOCKED goes on with the lock bit. -/
theorem ask_pllLocked {s : State} (h : s.hw = []) (p : PllId) :
    ∃ t, OnlyRead s t ∧ ∀ (α : Type) (k : Word → State → MacroEnd α),
      ask (.pllLocked (pllOperand p)) s k = k (boolWord (s.lck p)) t := by
  refine ⟨_, ?_, fun _ => ask_of_succeed (exec_pllLocked_undisturbed (undisturbed_accept h _) p)⟩
  exact ⟨rfl, rfl, h⟩

/-- A pseudo-operation that asks PLL_BYPASSED goes on with the bypass of R185. -/
theorem ask_pllBypassed {s : State} (h : s.hw = []) (p : PllId) :
    ∃ t, OnlyRead s t ∧ ∀ (α : Type) (k : Word → State → MacroEnd α),
      ask (.pllBypassed (pllOperand p)) s k = k (boolWord (s.byp p)) t := by
  refine ⟨_, ?_, fun _ => ask_of_succeed (exec_pllBypassed_undisturbed (undisturbed_accept h _) p)⟩
  exact ⟨rfl, rfl, h⟩

/-! The three pseudo-operations -/

/-- The observation by its priority (42_settle_and_lifecycle.md R185). -/
theorem obs_bypassed {s : State} {p : PllId} (h : s.safeMode = true ∨ s.bypassSelect p = true) :
    s.obs p = .bypassed := by
  have hbyp : s.byp p = true := by simpa only [State.byp, Bool.or_eq_true] using h
  simp only [State.obs, classify, hbyp, if_true]

theorem obs_not_bypassed {s : State} {p : PllId} (hs : s.safeMode = false) (hb : s.bypassSelect p = false) :
    s.obs p = if s.lck p then .locked else .locking := by
  have hbyp : s.byp p = false := by rw [State.byp, hs, hb, Bool.or_self]
  simp only [State.obs, classify, hbyp, Bool.false_eq_true, if_false]

/-- PLL_STATE answers the observation. -/
theorem pllState_obs {s : State} (h : s.hw = []) (p : PllId) :
    ∃ t, OnlyRead s t ∧ pllState (pllOperand p) s = .answer (s.obs p) t := by
  obtain ⟨t, hst, hbyp⟩ := ask_pllBypassed h p
  obtain ⟨u, htu, hlck⟩ := ask_pllLocked hst.hw p
  refine ⟨u, hst.trans htu, ?_⟩
  rw [pllState, hbyp, hlck, hst.lck, boolWord_beq_one, boolWord_beq_one, State.obs]

/-- Settles O57: the observation, and its three cases. -/
theorem pllStateAnswersTheObservation : Obligations.PllStateAnswersTheObservation := by
  intro s p hu
  obtain ⟨t, hst, e⟩ := pllState_obs hu.1 p
  refine ⟨t, hst.keepsRegisters, e, fun h => ?_, fun hs hb hl => ?_, fun hs hb hl => ?_⟩
  · rw [e, obs_bypassed h]
  · rw [e, obs_not_bypassed hs hb, hl, if_pos rfl]
  · rw [e, obs_not_bypassed hs hb, hl, if_neg Bool.false_ne_true]

/-- WAIT_LOCK answers the lock bit where a poll is permitted: the first poll that finds it 1 is the last, and none
changes it. -/
theorem waitLock_lck (k : Nat) {s : State} (h : s.hw = []) (p : PllId) :
    ∃ t, OnlyRead s t ∧ waitLock (pllOperand p) k s = .answer (decide (0 < k) && s.lck p) t := by
  induction k generalizing s with
  | zero => exact ⟨s, .refl h, rfl⟩
  | succ k ih =>
    obtain ⟨t, hst, hask⟩ := ask_pllLocked h p
    cases hl : s.lck p with
    | true => exact ⟨t, hst, by simp [waitLock, hask, hl]⟩
    | false =>
      obtain ⟨u, htu, e⟩ := ih hst.hw
      exact ⟨u, hst.trans htu, by simp [waitLock, hask, hl, e, hst.lck]⟩

/-- Settles O59, by induction on the polls permitted. -/
theorem waitLockPollsTheLockBit : Obligations.WaitLockPollsTheLockBit := by
  intro k s p hu
  obtain ⟨t, hst, e⟩ := waitLock_lck k hu.1 p
  exact ⟨t, e, hst.keepsRegisters⟩

/-- CLEAR_ALL answers 0, and leaves what a write of the mask of every latch leaves. -/
theorem clearAll_writes {s : State} (h : s.hw = []) :
    ∃ t, clearAll s = .answer 0#32 t ∧ WroteOnce s s.cfg.statclrAddr (allowedMask s.cfg) t := by
  have hu := undisturbed_accept h (encode (.statClear (allowedMask s.cfg)))
  exact ⟨_, ask_of_succeed (exec_statClear_undisturbed hu (maskAllowed_allowedMask s.cfg)) _,
    wroteOnce_of_write (s := s) (u := s.accept _ none) rfl rfl hu _ _ _⟩

/-- Settles O58: the mask has a 1 at each latch, and a write leaves the lock bits. -/
theorem clearAllClearsEveryLatch : Obligations.ClearAllClearsEveryLatch := by
  intro s hu hwf
  obtain ⟨t, e, hw⟩ := clearAll_writes hu.1
  have hread : KeepsRegisters (s.writeReg s.cfg.statclrAddr (allowedMask s.cfg)) t :=
    .of_word (by simp [hw.cfg]) hw.word
  have hlatch {p : PllId} {b : Nat} (hb : b = s.cfg.achBit.get p ∨ b = s.cfg.lostBit.get p) :
      (t.readReg s.cfg.statusAddr).getLsbD b = false := by
    rw [hread, latch_writeReg hwf _ _ hb, getLsbD_allowedMask_latch hwf hb]
    simp
  refine ⟨t, e, fun p => ⟨hlatch (.inl rfl), hlatch (.inr rfl), ?_⟩⟩
  rw [State.lck, hw.cfg, hread, ← lck_writeReg hwf s.cfg.statclrAddr (allowedMask s.cfg) p, State.lck,
    State.writeReg_cfg]

end Sys2Proof.Machine
end

section
/-!
SUPPORT. The two stages in exact arithmetic (40_resolver.md R114 to R118): the 64-bit accumulator loses nothing, whatever
the widths of the raw fields (O37, O38, O39).
-/

namespace Sys2Proof.Machine

@[simp] theorem toNat_plusOne (x : Word) : (plusOne x).toNat = x.toNat + 1 := by
  have := x.isLt
  rw [plusOne, BitVec.toNat_add, BitVec.toNat_setWidth]
  simp only [BitVec.toNat_ofNat]
  omega

/-- A product of a frequency and an effective multiplier fits the accumulator (R116). -/
theorem product_lt (fp n : Word) : fp.toNat * (n.toNat + 1) < 2 ^ 64 :=
  calc fp.toNat * (n.toNat + 1) < 2 ^ 32 * (n.toNat + 1) := Nat.mul_lt_mul_of_pos_right fp.isLt (Nat.succ_pos _)
    _ ≤ 2 ^ 32 * 2 ^ 32 := Nat.mul_le_mul_left _ n.isLt
    _ = 2 ^ 64 := by norm_num

theorem toNat_setWidth_wide (x : Word) : (x.setWidth 64 : Wide).toNat = x.toNat :=
  BitVec.toNat_setWidth_of_le (by decide)

/-- The accumulator of a PLL stage is the exact quotient (R114). -/
theorem pllQuotient_eq (fp n d : Word) :
    fp.setWidth 64 * plusOne n / plusOne d = (BitVec.ofNat 64 (fp.toNat * (n.toNat + 1) / (d.toNat + 1)) : Wide) := by
  have hlt := product_lt fp n
  apply BitVec.eq_of_toNat_eq
  rw [BitVec.toNat_udiv, BitVec.toNat_mul, toNat_setWidth_wide, toNat_plusOne, toNat_plusOne, Nat.mod_eq_of_lt hlt,
    BitVec.toNat_ofNat, Nat.mod_eq_of_lt (lt_of_le_of_lt (Nat.div_le_self _ _) hlt)]

/-- The check of R116 on a quotient that the accumulator holds. -/
theorem maxFrequency_lt_iff {q : Nat} (hq : q < 2 ^ 64) : maxFrequency < BitVec.ofNat 64 q ↔ 2 ^ 32 ≤ q := by
  rw [BitVec.lt_def, BitVec.toNat_ofNat, Nat.mod_eq_of_lt hq, show maxFrequency.toNat = 2 ^ 32 - 1 from rfl]
  omega

/-- A PLL stage, for raw fields of any width. -/
theorem pllStage_exact (fp n d : Word) (s : State) {q : Nat} (hq : q = fp.toNat * (n.toNat + 1) / (d.toNat + 1)) :
    (q < 2 ^ 32 → pllStage fp n d s = .ok (BitVec.ofNat 32 q) (s.setAcc (BitVec.ofNat 64 q))) ∧
      (2 ^ 32 ≤ q → pllStage fp n d s = .failed .arithmeticOverflow (s.setAcc (BitVec.ofNat 64 q))) := by
  have hlt : q < 2 ^ 64 := hq ▸ lt_of_le_of_lt (Nat.div_le_self _ _) (product_lt fp n)
  simp only [pllStage, pllQuotient_eq, ← hq, maxFrequency_lt_iff hlt]
  refine ⟨fun h => ?_, fun h => if_pos h⟩
  rw [if_neg (by omega), BitVec.setWidth_ofNat_of_le (by decide)]

/-- Settles O37: the widths of the raw fields are not needed. -/
theorem pllStageIsExact : Obligations.PllStageIsExact := fun fp n d s _ _ => pllStage_exact fp n d s rfl

/-- A PLL stage comes to the exact quotient where that is a frequency, and overflows otherwise. -/
theorem pllStage_cases (fp n d : Word) (s : State) :
    ∃ acc, (∃ v : Word, v.toNat = fp.toNat * (n.toNat + 1) / (d.toNat + 1) ∧
        pllStage fp n d s = .ok v (s.setAcc acc)) ∨
      2 ^ 32 ≤ fp.toNat * (n.toNat + 1) / (d.toNat + 1) ∧
        pllStage fp n d s = .failed .arithmeticOverflow (s.setAcc acc) := by
  obtain ⟨hok, hover⟩ := pllStage_exact fp n d s rfl
  refine ⟨BitVec.ofNat 64 (fp.toNat * (n.toNat + 1) / (d.toNat + 1)), ?_⟩
  rcases Nat.lt_or_ge (fp.toNat * (n.toNat + 1) / (d.toNat + 1)) (2 ^ 32) with h | h
  · exact .inl ⟨_, (BitVec.toNat_ofNat _ _).trans (Nat.mod_eq_of_lt h), hok h⟩
  · exact .inr ⟨h, hover h⟩

/-- A derived stage is the exact quotient (R115). -/
theorem derivedStage_exact (fp r : Word) (s : State) :
    ∃ v : Word, v.toNat = fp.toNat / (r.toNat + 1) ∧ derivedStage fp r s = .ok v (s.setAcc (v.setWidth 64)) := by
  have hq : (fp.setWidth 64 / plusOne r).toNat = fp.toNat / (r.toNat + 1) := by
    rw [BitVec.toNat_udiv, toNat_setWidth_wide, toNat_plusOne]
  have hlt : fp.toNat / (r.toNat + 1) < 2 ^ 32 := lt_of_le_of_lt (Nat.div_le_self _ _) fp.isLt
  have hv : ((fp.setWidth 64 / plusOne r).setWidth 32 : Word).toNat = fp.toNat / (r.toNat + 1) := by
    rw [BitVec.toNat_setWidth, hq, Nat.mod_eq_of_lt hlt]
  have hwide : ((fp.setWidth 64 / plusOne r).setWidth 32 : Word).setWidth 64 = fp.setWidth 64 / plusOne r :=
    BitVec.eq_of_toNat_eq (by rw [toNat_setWidth_wide, hv, hq])
  exact ⟨_, hv, by rw [hwide]; rfl⟩

/-- Settles O38. -/
theorem derivedStageIsExact : Obligations.DerivedStageIsExact := by
  intro fp r s
  obtain ⟨v, hv, e⟩ := derivedStage_exact fp r s
  exact ⟨v, _, e, hv, hv ▸ Nat.div_le_self _ _, rfl⟩

/-- Settles O39: a quotient divided again. -/
theorem stagesDivideOnce : Obligations.StagesDivideOnce := by
  intro fp n d r v w s t u _ _ hpll hderived
  have hv : v.toNat = fp.toNat * (n.toNat + 1) / (d.toNat + 1) := by
    obtain ⟨acc, ⟨v', hv', e⟩ | ⟨-, e⟩⟩ := pllStage_cases fp n d s <;> rw [e] at hpll <;> cases hpll
    exact hv'
  have hw : w.toNat = v.toNat / (r.toNat + 1) := by
    obtain ⟨w', hw', e⟩ := derivedStage_exact v r t
    rw [e] at hderived
    cases hderived
    exact hw'
  rw [hw, hv, Nat.div_div_eq_div_mul]

end Sys2Proof.Machine
end

section
/-!
SUPPORT. RESOLVE taken apart, with no reset coming (40_resolver.md R111 to R113, R120): a node is an oscillator, or one
multiplexer read with a walk and a stage above it. What an oscillator and an unknown multiplexer value come to (O32, O36),
and OSC_SET (O11, O12).
-/

namespace Sys2Proof.Machine

/-! A node above an oscillator: its multiplexer and its stage -/

/-- The multiplexer field of a node that is no root (10_state.md R30). -/
def nodeMux : Node → Option Field
  | .osc _ => none
  | .pll _ mux _ _ _ => some mux
  | .derived mux _ _ _ => some mux

theorem nodeMux_eq_none {node : Node} : nodeMux node = none ↔ ∃ i, node = .osc i := by cases node <;> simp [nodeMux]

/-- Such a node is a PLL or a derived node. -/
theorem nodeMux_eq_some {node : Node} {mux : Field} : nodeMux node = some mux ↔
    (∃ p menu numer denom, node = .pll p mux menu numer denom) ∨ ∃ menu div gate, node = .derived mux menu div gate := by
  cases node <;> simp [nodeMux]

/-- The stage of a node over its parent's frequency: the reads of its ratio fields, then the arithmetic (R114, R115). -/
def nodeStage (node : Node) (fp : Word) (s : State) : Res Word :=
  match node with
  | .osc _ => .ok fp s
  | .pll _ _ _ numer denom =>
    (readField numer s).andThen fun rawN s => (readField denom s).andThen fun rawD s => pllStage fp rawN rawD s
  | .derived _ _ div _ => (readField div s).andThen fun rawR s => derivedStage fp rawR s

theorem resolveNode_osc {fuel n i : Nat} {s : State} {o : Oscillator} (hn : s.cfg.topo[n]? = some (.osc i))
    (ho : s.osc[i]? = some o) : resolveNode (fuel + 1) n s = .done (.ok o.freq (s.visit n)) := by
  simp only [resolveNode, State.visit_cfg, State.visit_osc, hn, ho]

theorem resolveNode_noSuchOscillator {fuel n i : Nat} {s : State} (hn : s.cfg.topo[n]? = some (.osc i))
    (ho : s.osc[i]? = none) : resolveNode (fuel + 1) n s = .stuck .noSuchOscillator := by
  simp only [resolveNode, State.visit_cfg, State.visit_osc, hn, ho]

theorem resolveNode_noSuchNode {fuel n : Nat} {s : State} (hn : s.cfg.topo[n]? = none) :
    resolveNode (fuel + 1) n s = .stuck .noSuchNode := by
  simp only [resolveNode, State.visit_cfg, hn]

/-- A PLL and a derived node are resolved in the same way, each by its own stage. -/
theorem resolveNode_mux {fuel n : Nat} {s : State} {node : Node} {mux : Field} (hn : s.cfg.topo[n]? = some node)
    (hmux : nodeMux node = some mux) :
    resolveNode (fuel + 1) n s = (selectParent mux node.menu (s.visit n)).thenWalk fun m s =>
      (resolveNode fuel m s.descend).thenStage fun fp s => nodeStage node fp s.ascend := by
  obtain ⟨p, menu, numer, denom, rfl⟩ | ⟨menu, div, gate, rfl⟩ := nodeMux_eq_some.mp hmux
  · simp only [resolveNode, State.visit_cfg, hn]
    rfl
  · simp only [resolveNode, State.visit_cfg, hn]
    rfl

/-! The clock hardware between the reads -/

/-- Two states are the same to the clock hardware. -/
structure SameHardware (s t : State) : Prop where
  cfg : s.cfg = t.cfg
  mem : s.mem = t.mem
  life : s.life = t.life
  disturbed : s.disturbed = t.disturbed
  hw : s.hw = t.hw

theorem SameHardware.pollHw {s t : State} (h : SameHardware s t) : SameHardware s.pollHw t.pollHw := by
  obtain ⟨hm, hl, hd⟩ := State.pollHw_congr h.cfg h.mem h.life h.disturbed h.hw
  exact ⟨by simp [h.cfg], hm, hl, hd, by simp [h.hw]⟩

theorem SameHardware.readReg {s t : State} (h : SameHardware s t) (a : Word) : s.readReg a = t.readReg a :=
  State.readReg_congr h.cfg h.mem a

/-- The state after a read of the register at `a`, the clock hardware moving first (20_memory.md R53, R61 (d)). -/
def State.readAt (s : State) (a : Word) : State := s.pollHw.record (.rd a (s.pollHw.readReg a))

theorem State.readAt_events (s : State) (a : Word) :
    (s.readAt a).events = s.events ++ [.rd a (s.pollHw.readReg a)] := by
  rw [State.readAt, State.record_events, State.pollHw_events]

@[simp] theorem State.readAt_sp (s : State) (a : Word) : (s.readAt a).sp = s.sp := s.pollHw_sp

theorem Ready.readAt {c : Config} {osc : List Oscillator} {s : State} (h : Ready c osc s) (a : Word) :
    Ready c osc (s.readAt a) :=
  ⟨h.pollHw.cfg, h.pollHw.osc, h.pollHw.resetIn⟩

/-- The state that a walk resumes in below node `n`, whose multiplexer register is at `a`. -/
def State.below (s : State) (n : Nat) (a : Word) : State := ((s.visit n).readAt a).descend

theorem Ready.below {c : Config} {osc : List Oscillator} {s : State} (h : Ready c osc s) (n : Nat) (a : Word) :
    Ready c osc (s.below n a) :=
  (quiet_descend c osc).ready _ (((quiet_visit c osc n).ready s h).readAt a)

theorem sameHardware_visit (s : State) (n : Nat) : SameHardware (s.visit n) s := ⟨rfl, rfl, rfl, rfl, rfl⟩

/-- To the clock hardware a walk below a node is one read further on, and no more. -/
theorem sameHardware_below (s : State) (n : Nat) (a : Word) : SameHardware (s.below n a) s.pollHw := by
  obtain ⟨hc, hm, hl, hd, hh⟩ := (sameHardware_visit s n).pollHw
  exact ⟨hc, hm, hl, hd, hh⟩

/-! The multiplexer step, with no reset coming -/

/-- The node that the live multiplexer value selects, if it is a known one (R113). -/
def selected (mux : Field) (menu : Menu) (s : State) : Option Nat :=
  menuLookup menu (extract (s.pollHw.readReg mux.addr) mux).toNat

theorem readField_readAt {s : State} (h : s.resetIn = none) (f : Field) :
    readField f s = .ok (extract (s.pollHw.readReg f.addr) f) (s.readAt f.addr) := readField_noReset f h

theorem selected_congr {s t : State} (h : SameHardware s t) (mux : Field) (menu : Menu) :
    selected mux menu s = selected mux menu t := by
  rw [selected, h.pollHw.readReg, selected]

section
variable {fuel n m : Nat} {s : State} {node : Node} {mux : Field} (hr : s.resetIn = none)
  (hn : s.cfg.topo[n]? = some node) (hmux : nodeMux node = some mux)
include hr hn hmux

/-- An unknown multiplexer value ends the walk after its one read (R120). -/
theorem resolveNode_unknown (h : selected mux node.menu s = none) :
    resolveNode (fuel + 1) n s = .done (.failed .badArgument ((s.visit n).readAt mux.addr)) := by
  rw [← selected_congr (sameHardware_visit s n), selected] at h
  rw [resolveNode_mux hn hmux, selectParent, readField_readAt (s := s.visit n) hr, Res.andThen_ok]
  simp only [h, Res.thenWalk_failed]

/-- A known one leads to the parent, and from there to the node's stage (R111, R113). -/
theorem resolveNode_known (h : selected mux node.menu s = some m) :
    resolveNode (fuel + 1) n s =
      (resolveNode fuel m (s.below n mux.addr)).thenStage fun fp s => nodeStage node fp s.ascend := by
  rw [← selected_congr (sameHardware_visit s n), selected] at h
  rw [resolveNode_mux hn hmux, selectParent, readField_readAt (s := s.visit n) hr, Res.andThen_ok]
  simp only [h, Res.thenWalk_ok]
  rfl

end

/-! The operation -/

/-- The state that RESOLVE begins its walk in: `sp` is 0 (R111). -/
def State.atRequest (s : State) : State := { s with sp := 0 }

@[simp] theorem State.atRequest_cfg (s : State) : s.atRequest.cfg = s.cfg := rfl
@[simp] theorem State.atRequest_opR (s : State) : s.atRequest.opR = s.opR := rfl
@[simp] theorem State.atRequest_aR (s : State) : s.atRequest.aR = s.aR := rfl
@[simp] theorem State.atRequest_bR (s : State) : s.atRequest.bR = s.bR := rfl
@[simp] theorem State.atRequest_osc (s : State) : s.atRequest.osc = s.osc := rfl
@[simp] theorem State.atRequest_events (s : State) : s.atRequest.events = s.events := rfl
@[simp] theorem State.atRequest_inputs (s : State) : s.atRequest.inputs = s.inputs := rfl
@[simp] theorem State.atRequest_resetIn (s : State) : s.atRequest.resetIn = s.resetIn := rfl
@[simp] theorem State.atRequest_hostWord (s : State) : s.atRequest.hostWord = s.hostWord := rfl

theorem sameHardware_atRequest (s : State) : SameHardware s.atRequest s := ⟨rfl, rfl, rfl, rfl, rfl⟩

theorem exec_resolve {s : State} {a : Word} (h : a.toNat < s.cfg.nNodes) :
    exec (.resolve a) s = (resolveNode (s.cfg.maxDepth + 1) a.toNat s.atRequest).outcome := by
  simp only [exec, execResolve, nodeId?, if_pos h]
  rfl

theorem exec_resolve_outOfRange {s : State} {a : Word} (hr : s.resetIn = none) (h : ¬ a.toNat < s.cfg.nNodes) :
    exec (.resolve a) s = .next (s.raiseFailure .badArgument) :=
  exec_of_commandFailure hr (by simp only [commandFailure, nodeId?, if_neg h])

theorem lt_nNodes_of_node {c : Config} {n : Nat} {node : Node} (h : c.topo[n]? = some node) : n < c.nNodes :=
  (List.getElem?_eq_some_iff.mp h).1

/-- RESOLVE of an oscillator's node (R112). -/
theorem exec_resolve_osc {s : State} {a : Word} {i : Nat} {o : Oscillator} (hr : s.resetIn = none)
    (hn : s.cfg.topo[a.toNat]? = some (.osc i)) (ho : s.osc[i]? = some o) :
    exec (.resolve a) s = .next ((s.atRequest.visit a.toNat).succeed o.freq) := by
  rw [exec_resolve (lt_nNodes_of_node hn), resolveNode_osc (s := s.atRequest) hn ho, Walk.outcome, finish_eq,
    Res.conclude_ok _ (by simpa using hr)]

/-- Settles O32. -/
theorem resolveOfOscillatorReadsTheTable : Obligations.ResolveOfOscillatorReadsTheTable := by
  intro s a i o hr hn ho
  refine ⟨_, exec_resolve_osc hr hn ho, ⟨rfl, rfl, rfl, rfl⟩, ?_, ⟨rfl, rfl, rfl, rfl, rfl⟩, rfl, rfl,
    .of_mem rfl rfl, ⟨rfl, rfl, rfl, rfl, rfl⟩⟩
  simp [Issued]

/-- Settles O36: the failure of the multiplexer step is that of the walk, and of the operation (60_exceptions.md R212). -/
theorem unknownMultiplexerFailsAtOnce : Obligations.UnknownMultiplexerFailsAtOnce := by
  intro s a node mux hr hn hnode hsel
  have hmux : nodeMux node = some mux := nodeMux_eq_some.mpr hnode
  have h0 : SameHardware (s.atRequest.visit a.toNat) s := ⟨rfl, rfl, rfl, rfl, rfl⟩
  have hsel0 : selected mux node.menu s.atRequest = none :=
    (selected_congr (sameHardware_atRequest s) mux node.menu).trans hsel
  have e := exec_resolve (lt_nNodes_of_node hn)
  rw [resolveNode_unknown (s := s.atRequest) hr hn hmux hsel0, Walk.outcome, finish_eq,
    Res.conclude_failed _ (by simpa [State.readAt] using hr)] at e
  refine ⟨_, e, ⟨rfl, rfl, rfl⟩, ?_, ⟨?_, ?_, ?_, ?_, ?_⟩, .of_mem h0.pollHw.cfg h0.pollHw.mem,
    h0.pollHw.life, ?_, h0.pollHw.hw, ?_, ?_⟩
  · rw [Issued, State.raiseFailure_events, State.readAt_events, h0.pollHw.readReg]
    rfl
  all_goals simp [State.readAt]

/-! OSC_SET -/

theorem oscIndex?_of_lt {c : Config} {a : Word} (h : a.toNat < c.nOsc) : oscIndex? c a = some a.toNat := if_pos h

/-- Settles O11. -/
theorem oscSetStoresTheFrequency : Obligations.OscSetStoresTheFrequency := by
  intro s a b hr ha
  refine ⟨_, exec_oscSet hr (oscIndex?_of_lt ha), ⟨rfl, rfl, rfl, rfl⟩, ?_, fun i => ?_, rfl, rfl, rfl, rfl,
    ⟨rfl, rfl, rfl, rfl, rfl⟩, .of_mem rfl rfl, ⟨rfl, rfl, rfl, rfl, rfl⟩⟩
  · simp [Issued]
  · simp only [State.succeed_osc, State.setOscFreq_osc, List.getElem?_modify, eq_comm (a := i)]
    rfl

/-- Settles O12: the entry that OSC_SET stored is the one that the oscillator's node names. -/
theorem overrideIsReadBack : Obligations.OverrideIsReadBack := by
  intro s t a b n hr hlen ha hn e
  rw [exec_oscSet hr (oscIndex?_of_lt ha)] at e
  cases e
  have ho : (s.setOscFreq a.toNat b).osc[a.toNat]? = some { s.osc[a.toNat] with freq := b } := by
    simp [hlen, ha]
  refine ⟨_, exec_resolve_osc (s := (s.setOscFreq a.toNat b).succeed 0#32) hr hn ho, ⟨rfl, rfl, rfl, rfl⟩, ?_⟩
  simp [Issued]

end Sys2Proof.Machine
end

section
/-!
SUPPORT. RESOLVE against the reference resolver of exact arithmetic, undisturbed (40_resolver.md R110 to R123; O33), and
what the reference resolver, so RESOLVE, depends on (R127; O41).
-/

namespace Sys2Proof.Machine

/-- A field extracted by shift and mask is its raw value by division, for every descriptor (10_state.md R31). -/
theorem toNat_extract (w : Word) (f : Field) : (extract w f).toNat = rawField w f := by
  apply Nat.eq_of_testBit_eq
  intro i
  rw [rawField, Nat.testBit_mod_two_pow, Nat.testBit_div_two_pow, BitVec.testBit_toNat, BitVec.testBit_toNat, extract,
    BitVec.getLsbD_and, BitVec.getLsbD_ushiftRight, BitVec.getLsbD_ofNat, Nat.testBit_two_pow_sub_one]
  by_cases hi : i < 32
  · simp [hi, Bool.and_comm, Nat.add_comm]
  · simp [hi, BitVec.getLsbD_of_ge w (i + f.lsb) (by omega)]

/-! The reference resolver taken apart as the walk is -/

/-- The registers of a node's ratio fields, in the order of R123. -/
def stageAddresses : Node → List Word
  | .osc _ => []
  | .pll _ _ _ numer denom => [numer.addr, denom.addr]
  | .derived _ _ div _ => [div.addr]

/-- A node's stage in exact arithmetic (R114, R115). -/
def exactStage (word : Word → Word) (f : Nat) : Node → Except Failure Nat
  | .osc _ => .ok f
  | .pll _ _ _ numer denom => exactPll f (rawField (word numer.addr) numer) (rawField (word denom.addr) denom)
  | .derived _ _ div _ => exactDerived f (rawField (word div.addr) div)

/-- The parent that the reference resolver takes. -/
def exactParent (word : Word → Word) (mux : Field) (menu : Menu) : Option Nat :=
  menuLookup menu (rawField (word mux.addr) mux)

section
variable {c : Config} {osc : List Oscillator} {word : Word → Word} {fuel n m i : Nat} {node : Node} {mux : Field}

theorem exactResolve_noSuchNode (hn : c.topo[n]? = none) : exactResolve c osc word (fuel + 1) n = none := by
  simp only [exactResolve, hn]

theorem exactResolve_osc (hn : c.topo[n]? = some (.osc i)) :
    exactResolve c osc word (fuel + 1) n = (osc[i]?).map fun o => .ok o.freq.toNat := by
  simp only [exactResolve, hn]

theorem exactReads_osc (hn : c.topo[n]? = some (.osc i)) : exactReads c osc word (fuel + 1) n = [] := by
  simp only [exactReads, hn]

section
variable (hn : c.topo[n]? = some node) (hmux : nodeMux node = some mux)
include hn hmux

theorem exactResolve_unknown (h : exactParent word mux node.menu = none) :
    exactResolve c osc word (fuel + 1) n = some (.error .badArgument) := by
  obtain ⟨p, menu, numer, denom, rfl⟩ | ⟨menu, div, gate, rfl⟩ := nodeMux_eq_some.mp hmux <;>
    rw [exactParent, Node.menu] at h <;> simp only [exactResolve, hn, h]

theorem exactReads_unknown (h : exactParent word mux node.menu = none) :
    exactReads c osc word (fuel + 1) n = [mux.addr] := by
  obtain ⟨p, menu, numer, denom, rfl⟩ | ⟨menu, div, gate, rfl⟩ := nodeMux_eq_some.mp hmux <;>
    rw [exactParent, Node.menu] at h <;> simp only [exactReads, hn, h]

theorem exactResolve_known (h : exactParent word mux node.menu = some m) :
    exactResolve c osc word (fuel + 1) n =
      (exactResolve c osc word fuel m).map fun r => r.bind fun f => exactStage word f node := by
  obtain ⟨p, menu, numer, denom, rfl⟩ | ⟨menu, div, gate, rfl⟩ := nodeMux_eq_some.mp hmux <;>
    rw [exactParent, Node.menu] at h <;> simp only [exactResolve, hn, h, exactStage]

theorem exactReads_known_ok {f : Nat} (h : exactParent word mux node.menu = some m)
    (hm : exactResolve c osc word fuel m = some (.ok f)) :
    exactReads c osc word (fuel + 1) n = mux.addr :: (exactReads c osc word fuel m ++ stageAddresses node) := by
  obtain ⟨p, menu, numer, denom, rfl⟩ | ⟨menu, div, gate, rfl⟩ := nodeMux_eq_some.mp hmux <;>
    rw [exactParent, Node.menu] at h <;>
    simp only [exactReads, hn, h, hm, stageAddresses, List.cons_append, List.nil_append]

theorem exactReads_known_error {k : Failure} (h : exactParent word mux node.menu = some m)
    (hm : exactResolve c osc word fuel m = some (.error k)) :
    exactReads c osc word (fuel + 1) n = mux.addr :: exactReads c osc word fuel m := by
  obtain ⟨p, menu, numer, denom, rfl⟩ | ⟨menu, div, gate, rfl⟩ := nodeMux_eq_some.mp hmux <;>
    rw [exactParent, Node.menu] at h <;>
    simp only [exactReads, hn, h, hm, List.singleton_append]

end
end

/-! What an undisturbed walk leaves behind -/

/-- From `s` to `u` the registers `xs` were read, in that order, and nothing else was done but to the resolver's own
registers (10_state.md R24). -/
def Walked (s : State) (xs : List Word) (u : State) : Prop :=
  ∃ acc sp stk, u = { s with
    acc := acc, sp := sp, stk := stk, events := s.events ++ xs.map fun x => .rd x (s.readReg x) }

theorem Walked.nil {s : State} (acc : Wide) (sp : Nat) (stk : List Nat) :
    Walked s [] { s with acc := acc, sp := sp, stk := stk } := ⟨acc, sp, stk, by simp⟩

theorem Walked.trans {s u v : State} {xs ys : List Word} (h : Walked s xs u) (h' : Walked u ys v) :
    Walked s (xs ++ ys) v := by
  obtain ⟨_, _, _, rfl⟩ := h
  obtain ⟨acc, sp, stk, rfl⟩ := h'
  refine ⟨acc, sp, stk, ?_⟩
  rw [List.map_append, ← List.append_assoc]
  rfl

theorem Walked.cfg {s u : State} {xs : List Word} (h : Walked s xs u) : u.cfg = s.cfg := by
  obtain ⟨_, _, _, rfl⟩ := h; rfl

theorem Walked.osc {s u : State} {xs : List Word} (h : Walked s xs u) : u.osc = s.osc := by
  obtain ⟨_, _, _, rfl⟩ := h; rfl

theorem Walked.readReg {s u : State} {xs : List Word} (h : Walked s xs u) : u.readReg = s.readReg := by
  obtain ⟨_, _, _, rfl⟩ := h; rfl

theorem Walked.undisturbed {s u : State} {xs : List Word} (h : Walked s xs u) (hu : Undisturbed s) : Undisturbed u := by
  obtain ⟨_, _, _, rfl⟩ := h; exact hu

theorem walked_visit (s : State) (n : Nat) : Walked s [] (s.visit n) := .nil _ _ _

theorem walked_descend (s : State) : Walked s [] s.descend := .nil _ _ _

theorem walked_ascend (s : State) : Walked s [] s.ascend := .nil _ _ _

theorem walked_setAcc (s : State) (v : Wide) : Walked s [] (s.setAcc v) := .nil _ _ _

theorem walked_atRequest (s : State) : Walked s [] s.atRequest := .nil _ _ _

theorem walked_readAt {s : State} (hu : Undisturbed s) (a : Word) : Walked s [a] (s.readAt a) := by
  refine ⟨s.acc, s.sp, s.stk, ?_⟩
  rw [State.readAt, State.pollHw_of_nil hu.1]
  rfl

theorem walked_below {s : State} (hu : Undisturbed s) (n : Nat) (a : Word) : Walked s [a] (s.below n a) :=
  ((walked_visit s n).trans (walked_readAt (s := s.visit n) hu a)).trans (walked_descend _)

theorem readField_walked {s : State} (hu : Undisturbed s) (f : Field) :
    readField f s = .ok (extract (s.readReg f.addr) f) (s.readAt f.addr) := by
  rw [readField_readAt hu.2, State.pollHw_of_nil hu.1]

theorem selected_undisturbed {s : State} (hu : Undisturbed s) (mux : Field) (menu : Menu) :
    selected mux menu s = exactParent s.readReg mux menu := by
  rw [selected, State.pollHw_of_nil hu.1, toNat_extract, exactParent]

/-! An undisturbed walk and the reference resolver -/

/-- A part of RESOLVE that began in `s` came to the exact result, by reading the registers `xs`. -/
inductive ExactEnd (s : State) (xs : List Word) : Except Failure Nat → Res Word → Prop where
  | ok (v : Word) {u : State} (hu : Walked s xs u) : ExactEnd s xs (.ok v.toNat) (.ok v u)
  | failed (k : Failure) {u : State} (hu : Walked s xs u) : ExactEnd s xs (.error k) (.failed k u)

/-- A walk that began in `s` is stuck as the reference resolver is, or came to the exact result. -/
inductive ExactWalk (s : State) (xs : List Word) : Option (Except Failure Nat) → Walk → Prop where
  | stuck (f : Fault) : ExactWalk s xs none (.stuck f)
  | done {o : Except Failure Nat} {r : Res Word} (h : ExactEnd s xs o r) : ExactWalk s xs (some o) (.done r)

theorem ExactEnd.after {s u : State} {xs ys : List Word} {o : Except Failure Nat} {r : Res Word} (hu : Walked s xs u)
    (h : ExactEnd u ys o r) : ExactEnd s (xs ++ ys) o r := by
  cases h with
  | ok v h => exact .ok v (hu.trans h)
  | failed k h => exact .failed k (hu.trans h)

theorem pllStage_exactEnd (fp n d : Word) (s : State) :
    ExactEnd s [] (exactPll fp.toNat n.toNat d.toNat) (pllStage fp n d s) := by
  obtain ⟨acc, ⟨v, hv, e⟩ | ⟨hover, e⟩⟩ := pllStage_cases fp n d s <;> rw [exactPll, e]
  · rw [← hv, if_pos v.isLt]
    exact .ok v (walked_setAcc s acc)
  · rw [if_neg (by omega)]
    exact .failed _ (walked_setAcc s acc)

theorem derivedStage_exactEnd (fp r : Word) (s : State) :
    ExactEnd s [] (exactDerived fp.toNat r.toNat) (derivedStage fp r s) := by
  obtain ⟨v, hv, e⟩ := derivedStage_exact fp r s
  rw [exactDerived, e, ← hv]
  exact .ok v (walked_setAcc s _)

/-- A node's stage is exact, and reads the node's ratio fields in the order of R123. -/
theorem nodeStage_exactEnd {s : State} (hu : Undisturbed s) (node : Node) (fp : Word) :
    ExactEnd s (stageAddresses node) (exactStage s.readReg fp.toNat node) (nodeStage node fp s) := by
  cases node with
  | osc i => exact .ok fp (walked_setAcc s s.acc)
  | pll p mux menu numer denom =>
    have hnumer := walked_readAt hu numer.addr
    have hdenom := walked_readAt (hnumer.undisturbed hu) denom.addr
    simp only [nodeStage, readField_walked hu, Res.andThen_ok, readField_walked (hnumer.undisturbed hu),
      hnumer.readReg, exactStage, ← toNat_extract]
    exact (pllStage_exactEnd _ _ _ _).after (hnumer.trans hdenom)
  | derived mux menu div gate =>
    simp only [nodeStage, readField_walked hu, Res.andThen_ok, exactStage, ← toNat_extract]
    exact (derivedStage_exactEnd _ _ _).after (walked_readAt hu div.addr)

/-- The walk and the reference resolver go together, by induction on the fuel, in every configuration. -/
theorem resolveNode_exactWalk (fuel n : Nat) {s : State} (hu : Undisturbed s) :
    ExactWalk s (exactReads s.cfg s.osc s.readReg fuel n) (exactResolve s.cfg s.osc s.readReg fuel n)
      (resolveNode fuel n s) := by
  induction fuel generalizing n s with
  | zero => exact .stuck _
  | succ fuel ih =>
    cases hn : s.cfg.topo[n]? with
    | none =>
      rw [exactResolve_noSuchNode hn, resolveNode_noSuchNode hn]
      exact .stuck _
    | some node =>
      cases hmux : nodeMux node with
      | none =>
        obtain ⟨i, rfl⟩ := nodeMux_eq_none.mp hmux
        rw [exactResolve_osc hn, exactReads_osc hn]
        cases ho : s.osc[i]? with
        | none =>
          rw [resolveNode_noSuchOscillator hn ho]
          exact .stuck _
        | some o =>
          rw [resolveNode_osc hn ho]
          exact .done (.ok o.freq (walked_visit s n))
      | some mux =>
        have hsel := selected_undisturbed hu mux node.menu
        cases hp : exactParent s.readReg mux node.menu with
        | none =>
          rw [exactResolve_unknown hn hmux hp, exactReads_unknown hn hmux hp,
            resolveNode_unknown hu.2 hn hmux (hsel.trans hp)]
          exact .done (.failed _ ((walked_visit s n).trans (walked_readAt (s := s.visit n) hu _)))
        | some m =>
          have hbelow := walked_below hu n mux.addr
          have hwalk := ih m (hbelow.undisturbed hu)
          rw [hbelow.cfg, hbelow.osc, hbelow.readReg] at hwalk
          rw [exactResolve_known hn hmux hp, resolveNode_known hu.2 hn hmux (hsel.trans hp)]
          generalize hrm : exactResolve s.cfg s.osc s.readReg fuel m = om at hwalk
          generalize resolveNode fuel m (s.below n mux.addr) = w at hwalk
          cases hwalk with
          | stuck f => exact .stuck f
          | done h =>
            cases h with
            | @ok fp u hw =>
              have hup : Walked s _ u.ascend := (hbelow.trans hw).trans (walked_ascend u)
              have hstage := nodeStage_exactEnd (hup.undisturbed hu) node fp
              rw [hup.readReg] at hstage
              rw [exactReads_known_ok hn hmux hp hrm]
              have hend := hstage.after hup
              simp only [List.append_nil, List.cons_append] at hend
              exact .done hend
            | failed k hw =>
              rw [exactReads_known_error hn hmux hp hrm]
              exact .done (.failed k (hbelow.trans hw))

/-- What a walk that only read leaves as it was. -/
theorem Walked.frame {s u : State} {xs : List Word} (h : Walked s xs u) :
    Issued s u (xs.map fun x => .rd x (s.readReg x)) ∧ KeepsBlock s u ∧ u.iter = s.iter ∧ u.rmw = s.rmw ∧
      KeepsRegisters s u ∧ KeepsSurroundings s u := by
  obtain ⟨_, _, _, rfl⟩ := h
  exact ⟨rfl, ⟨rfl, rfl, rfl, rfl, rfl⟩, rfl, rfl, .of_mem rfl rfl, ⟨rfl, rfl, rfl, rfl, rfl⟩⟩

/-- The end of the operation answers the exact result, and changes nothing else but the response. -/
theorem ExactEnd.conclude {s : State} {xs : List Word} {o : Except Failure Nat} {r : Res Word} (hu : Undisturbed s)
    (h : ExactEnd s xs o r) : AnswersExactly r.conclude o ∧
      Issued s r.conclude (xs.map fun x => .rd x (s.readReg x)) ∧ KeepsBlock s r.conclude ∧
      r.conclude.iter = s.iter ∧ r.conclude.rmw = s.rmw ∧ KeepsRegisters s r.conclude ∧
      KeepsSurroundings s r.conclude := by
  cases h with
  | @ok v u hw =>
    rw [Res.conclude_ok v (hw.undisturbed hu).2]
    have hv : BitVec.ofNat 32 v.toNat = v := by rw [BitVec.ofNat_toNat, BitVec.setWidth_eq]
    refine ⟨⟨v.isLt, ?_⟩, hw.frame⟩
    rw [hv]
    exact ⟨rfl, rfl, rfl, rfl⟩
  | failed k hw =>
    rw [Res.conclude_failed k (hw.undisturbed hu).2]
    exact ⟨⟨rfl, rfl, rfl⟩, hw.frame⟩

theorem ExactWalk.after {s u : State} {xs ys : List Word} {o : Option (Except Failure Nat)} {w : Walk}
    (hu : Walked s xs u) (h : ExactWalk u ys o w) : ExactWalk s (xs ++ ys) o w := by
  cases h with
  | stuck f => exact .stuck f
  | done h => exact .done (h.after hu)

/-- RESOLVE of a node, undisturbed: its walk goes with the reference resolver. -/
theorem exactWalk_atRequest {s : State} (hu : Undisturbed s) (n : Nat) :
    ExactWalk s (exactReads s.cfg s.osc s.readReg (s.cfg.maxDepth + 1) n)
      (exactResolve s.cfg s.osc s.readReg (s.cfg.maxDepth + 1) n) (resolveNode (s.cfg.maxDepth + 1) n s.atRequest) :=
  (resolveNode_exactWalk (s.cfg.maxDepth + 1) n (s := s.atRequest) hu).after (walked_atRequest s)

/-- Settles O33; that the configuration is well-formed is needed only for the reference resolver to have a result. -/
theorem resolveIsExact : Obligations.ResolveIsExact := by
  intro s a o hu _ ha ho
  have hwalk := exactWalk_atRequest hu a.toNat
  have e := exec_resolve ha
  rw [ho] at hwalk
  generalize resolveNode (s.cfg.maxDepth + 1) a.toNat s.atRequest = w at hwalk e
  cases hwalk with
  | @done _ r h => exact ⟨r.conclude, e, h.conclude hu⟩

/-! What the reference resolver depends on -/

theorem ratioAddresses_of_mux {node : Node} {mux : Field} (h : nodeMux node = some mux) :
    ratioAddresses node = mux.addr :: stageAddresses node := by
  obtain ⟨p, menu, numer, denom, rfl⟩ | ⟨menu, div, gate, rfl⟩ := nodeMux_eq_some.mp h <;> rfl

theorem exactStage_congr {word1 word2 : Word → Word} {node : Node} (h : ∀ x ∈ stageAddresses node, word1 x = word2 x)
    (f : Nat) : exactStage word1 f node = exactStage word2 f node := by
  cases node with
  | osc i => rfl
  | pll p mux menu numer denom =>
    rw [exactStage, h numer.addr (by simp [stageAddresses]), h denom.addr (by simp [stageAddresses]), exactStage]
  | derived mux menu div gate => rw [exactStage, h div.addr (by simp [stageAddresses]), exactStage]

/-- The reference result is a function of the topology, the frequencies, and the multiplexer and ratio registers. -/
theorem exactResolve_congr {c : Config} {osc1 osc2 : List Oscillator} {word1 word2 : Word → Word}
    (hosc : osc1.map (fun o => o.freq) = osc2.map (fun o => o.freq))
    (hword : ∀ node ∈ c.topo, ∀ x ∈ ratioAddresses node, word1 x = word2 x) (fuel n : Nat) :
    exactResolve c osc1 word1 fuel n = exactResolve c osc2 word2 fuel n := by
  induction fuel generalizing n with
  | zero => rfl
  | succ fuel ih =>
    cases hn : c.topo[n]? with
    | none => rw [exactResolve_noSuchNode hn, exactResolve_noSuchNode hn]
    | some node =>
      cases hmux : nodeMux node with
      | none =>
        obtain ⟨i, rfl⟩ := nodeMux_eq_none.mp hmux
        have hfreq (osc : List Oscillator) : (osc[i]?).map (fun o => (.ok o.freq.toNat : Except Failure Nat)) =
            ((osc.map fun o => o.freq)[i]?).map fun f => .ok f.toNat := by
          rw [List.getElem?_map, Option.map_map]
          rfl
        rw [exactResolve_osc hn, exactResolve_osc hn, hfreq, hfreq, hosc]
      | some mux =>
        have hregs := hword node (List.mem_of_getElem? hn)
        rw [ratioAddresses_of_mux hmux] at hregs
        have hparent : exactParent word1 mux node.menu = exactParent word2 mux node.menu := by
          rw [exactParent, hregs mux.addr List.mem_cons_self, exactParent]
        cases hp : exactParent word1 mux node.menu with
        | none => rw [exactResolve_unknown hn hmux hp, exactResolve_unknown hn hmux (hparent ▸ hp)]
        | some m =>
          rw [exactResolve_known hn hmux hp, exactResolve_known hn hmux (hparent ▸ hp), ih m]
          simp only [exactStage_congr fun x hx => hregs x (List.mem_cons_of_mem _ hx)]

/-- A RESOLVE that ends answers the reference result. -/
theorem answersExactly_of_exec {s t : State} {a : Word} (hu : Undisturbed s) (ha : a.toNat < s.cfg.nNodes)
    (e : exec (.resolve a) s = .next t) :
    ∃ o, exactResolve s.cfg s.osc s.readReg (s.cfg.maxDepth + 1) a.toNat = some o ∧ AnswersExactly t o := by
  have hwalk := exactWalk_atRequest hu a.toNat
  rw [exec_resolve ha] at e
  generalize exactResolve s.cfg s.osc s.readReg (s.cfg.maxDepth + 1) a.toNat = o at hwalk ⊢
  generalize resolveNode (s.cfg.maxDepth + 1) a.toNat s.atRequest = w at hwalk e
  cases hwalk with
  | stuck f => cases e
  | done h =>
    cases e
    exact ⟨_, rfl, (h.conclude hu).1⟩

theorem AnswersExactly.answered {t : State} {o : Except Failure Nat} (h : AnswersExactly t o) :
    Answered t (o.map (BitVec.ofNat 32)) := by
  cases o with
  | ok f => exact h.2
  | error k => exact h

/-- Settles O41: the two states have one reference result, and both operations answer it. -/
theorem resolveReadsNothingElse : Obligations.ResolveReadsNothingElse := by
  intro s1 s2 t1 t2 a hu1 hu2 hcfg hosc hword e1 e2
  by_cases ha : a.toNat < s1.cfg.nNodes
  · obtain ⟨o1, ho1, h1⟩ := answersExactly_of_exec hu1 ha e1
    obtain ⟨o2, ho2, h2⟩ := answersExactly_of_exec hu2 (hcfg ▸ ha) e2
    rw [exactResolve_congr hosc hword, hcfg, ho2] at ho1
    cases ho1
    exact h1.answered.same h2.answered
  · rw [exec_resolve_outOfRange hu1.2 ha] at e1
    rw [exec_resolve_outOfRange hu2.2 (hcfg ▸ ha)] at e2
    cases e1
    cases e2
    exact ⟨rfl, fun h0 => absurd h0 Failure.badArgument.code_ne_zero⟩

end Sys2Proof.Machine
end

section
/-!
SUPPORT. RESOLVE whatever the hardware does (40_resolver.md R119, R122): the reads and the depth of a walk (O35), and walks
from roots of 0 Hz (O40).
-/

namespace Sys2Proof.Machine

@[simp] theorem State.length_readAt_events (s : State) (a : Word) :
    (s.readAt a).events.length = s.events.length + 1 := by
  rw [State.readAt_events, List.length_append, List.length_singleton]

@[simp] theorem State.below_sp (s : State) (n : Nat) (a : Word) : (s.below n a).sp = s.sp + 1 := by simp [State.below]

@[simp] theorem State.length_below_events (s : State) (n : Nat) (a : Word) :
    (s.below n a).events.length = s.events.length + 1 := by simp [State.below]

section
variable {c : Config} {osc : List Oscillator}

theorem Ready.atRequest {s : State} (h : Ready c osc s) : Ready c osc s.atRequest := (quiet_sp c osc 0).ready s h

/-- What a stage can do: it makes at most two reads, ends at the depth it began at, and comes from 0 Hz to 0 Hz. -/
theorem nodeStage_cases {s : State} (hs : Ready c osc s) (node : Node) (fp : Word) :
    ∃ u, Ready c osc u ∧ u.sp = s.sp ∧ u.events.length ≤ s.events.length + 2 ∧
      ((∃ v, nodeStage node fp s = .ok v u ∧ (fp = 0#32 → v = 0#32)) ∨
        (fp ≠ 0#32 ∧ nodeStage node fp s = .failed .arithmeticOverflow u)) := by
  cases node with
  | osc i => exact ⟨s, hs, rfl, by omega, .inl ⟨fp, rfl, id⟩⟩
  | pll p mux menu numer denom =>
    have hnumer := hs.readAt numer.addr
    have hdenom := hnumer.readAt denom.addr
    simp only [nodeStage, readField_readAt hs.resetIn, readField_readAt hnumer.resetIn, Res.andThen_ok]
    generalize extract _ numer = rawN
    generalize extract _ denom = rawD
    obtain ⟨acc, h⟩ := pllStage_cases fp rawN rawD ((s.readAt numer.addr).readAt denom.addr)
    refine ⟨_, (quiet_setAcc c osc acc).ready _ hdenom, by simp, by simp, ?_⟩
    rcases h with ⟨v, hv, e⟩ | ⟨hover, e⟩
    · refine .inl ⟨v, e, fun h0 => BitVec.eq_of_toNat_eq ?_⟩
      simp [hv, h0]
    · refine .inr ⟨fun h0 => ?_, e⟩
      simp [h0] at hover
  | derived mux menu div gate =>
    simp only [nodeStage, readField_readAt hs.resetIn, Res.andThen_ok]
    obtain ⟨v, hv, e⟩ := derivedStage_exact fp (extract (s.pollHw.readReg div.addr) div) (s.readAt div.addr)
    refine ⟨_, (quiet_setAcc c osc _).ready _ (hs.readAt div.addr), by simp, by simp, .inl ⟨v, e, fun h0 => ?_⟩⟩
    exact BitVec.eq_of_toNat_eq (by simp [hv, h0])

end

/-! The reads and the depth of a walk -/

/-- A walk that began in `s`, from a node whose paths have at most `k` edges, came to a result within its bounds. One read
is made for the multiplexer even where the menu is empty, so that there is no edge; the walk fails then. -/
inductive BoundedEnd (c : Config) (osc : List Oscillator) (s : State) (k : Nat) : Res Word → Prop where
  | ok (v : Word) {u : State} (hu : Ready c osc u) (hsp : u.sp = s.sp)
      (he : u.events.length ≤ s.events.length + 3 * k) : BoundedEnd c osc s k (.ok v u)
  | failed (f : Failure) {u : State} (hu : Ready c osc u) (hsp : u.sp ≤ s.sp + k)
      (he : u.events.length ≤ s.events.length + max 1 (3 * k)) : BoundedEnd c osc s k (.failed f u)

/-- A walk over a well-formed topology ends, within its bounds: each edge costs one level and at most three reads. -/
theorem resolveNode_bounded {c : Config} {osc : List Oscillator} (hwf : c.wf = true) (hosc : osc.length = c.nOsc)
    (k n : Nat) (hn : n < c.nNodes) (hk : c.pathsWithin k n = true) {s : State} (hs : Ready c osc s) :
    ∃ r, resolveNode (k + 1) n s = .done r ∧ BoundedEnd c osc s k r := by
  induction k using Nat.strong_induction_on generalizing n s with
  | _ k ih =>
    obtain ⟨node, hnode⟩ : ∃ node, c.topo[n]? = some node := ⟨_, List.getElem?_eq_getElem hn⟩
    have hnode' : s.cfg.topo[n]? = some node := hs.cfg ▸ hnode
    cases hmux : nodeMux node with
    | none =>
      obtain ⟨i, rfl⟩ := nodeMux_eq_none.mp hmux
      obtain ⟨o, ho⟩ : ∃ o, osc[i]? = some o := ⟨_, List.getElem?_eq_getElem (hosc ▸ oscIndex_lt hwf hnode)⟩
      exact ⟨_, resolveNode_osc hnode' (hs.osc ▸ ho), .ok o.freq ((quiet_visit c osc n).ready s hs) rfl (by simp)⟩
    | some mux =>
      cases hsel : selected mux node.menu s with
      | none =>
        have hread : Ready c osc ((s.visit n).readAt mux.addr) := ((quiet_visit c osc n).ready s hs).readAt mux.addr
        exact ⟨_, resolveNode_unknown hs.resetIn hnode' hmux hsel, .failed _ hread (by simp) (by simp)⟩
      | some m =>
        have hedge := mem_parents hnode (mem_of_menuLookup hsel)
        obtain ⟨j, rfl, hj⟩ := pathsWithin_parent hk hedge
        obtain ⟨r, hr, hbound⟩ := ih j (Nat.lt_succ_self j) m (parent_lt hwf hedge) hj (hs.below n mux.addr)
        rw [resolveNode_known hs.resetIn hnode' hmux hsel, hr, Walk.thenStage_done]
        refine ⟨_, rfl, ?_⟩
        cases hbound with
        | @ok fp u hu hsp he =>
          rw [State.below_sp] at hsp
          rw [State.length_below_events] at he
          obtain ⟨w, hw, hwsp, hwe, hend⟩ := nodeStage_cases ((quiet_ascend c osc).ready u hu) node fp
          rw [State.ascend_sp] at hwsp
          rw [State.ascend_events] at hwe
          rw [Res.andThen_ok]
          rcases hend with ⟨v, e, -⟩ | ⟨-, e⟩ <;> rw [e]
          · exact .ok v hw (by omega) (by omega)
          · exact .failed _ hw (by omega) (by omega)
        | failed f hu hsp he =>
          rw [State.below_sp] at hsp
          rw [State.length_below_events] at he
          exact .failed f hu (by omega) (by omega)

/-- So does the operation. -/
theorem BoundedEnd.conclude {c : Config} {osc : List Oscillator} {s : State} {k : Nat} {r : Res Word}
    (h : BoundedEnd c osc s k r) :
    r.conclude.sp ≤ s.sp + k ∧ r.conclude.events.length ≤ s.events.length + max 1 (3 * k) := by
  cases h with
  | ok v hu hsp he =>
    rw [Res.conclude_ok v hu.resetIn, State.succeed_sp, State.succeed_events]
    omega
  | failed f hu hsp he =>
    rw [Res.conclude_failed f hu.resetIn]
    exact ⟨hsp, he⟩

/-- RESOLVE issues reads alone. -/
theorem exec_resolve_reads {s t : State} {a : Word} (e : exec (.resolve a) s = .next t) :
    ∃ es, Issued s t es ∧ ∀ e ∈ es, e.isWrite = false :=
  exec_issuedAll (fun _ _ _ => rfl) (fun hw : writes (.resolve a) => False.elim hw) e

/-- Settles O35: the topology's paths have at most `MAX_DEPTH` edges. -/
theorem resolveIsBounded : Obligations.ResolveIsBounded := by
  intro s a hr hwf hosc
  by_cases ha : a.toNat < s.cfg.nNodes
  · obtain ⟨r, hwalk, hbound⟩ := resolveNode_bounded hwf hosc s.cfg.maxDepth a.toNat ha (pathsWithin_maxDepth hwf ha)
      (Ready.atRequest ⟨rfl, rfl, hr⟩)
    have e := exec_resolve ha
    rw [hwalk] at e
    obtain ⟨es, hes, hreads⟩ := exec_resolve_reads e
    obtain ⟨hsp, he⟩ := hbound.conclude
    have hlen := congrArg List.length hes
    rw [List.length_append] at hlen
    rw [State.atRequest_events] at he
    exact ⟨r.conclude, es, e, hes, by omega, hreads, fun _ => hsp.trans_eq (Nat.zero_add _)⟩
  · exact ⟨_, [], exec_resolve_outOfRange hr ha, (List.append_nil _).symm, .inl (Nat.zero_le _), by simp,
      fun h => absurd h ha⟩

/-! Roots of 0 Hz -/

/-- The root that a walk reaches depends on what the clock hardware depends on, and no more. -/
theorem reachedRoot_congr (fuel n : Nat) {s t : State} (h : SameHardware s t) :
    reachedRoot fuel n s = reachedRoot fuel n t := by
  induction fuel generalizing n s t with
  | zero => rfl
  | succ fuel ih => simp only [reachedRoot, h.cfg, h.pollHw.readReg, ih _ h.pollHw]

theorem reachedRoot_osc {fuel n i : Nat} {s : State} (hn : s.cfg.topo[n]? = some (.osc i)) :
    reachedRoot (fuel + 1) n s = some i := by
  simp only [reachedRoot, hn]

theorem reachedRoot_noSuchNode {fuel n : Nat} {s : State} (hn : s.cfg.topo[n]? = none) :
    reachedRoot (fuel + 1) n s = none := by
  simp only [reachedRoot, hn]

/-- Below a node the root is that of the selected parent. -/
theorem reachedRoot_mux {fuel n : Nat} {s : State} {node : Node} {mux : Field} (hn : s.cfg.topo[n]? = some node)
    (hmux : nodeMux node = some mux) :
    reachedRoot (fuel + 1) n s = (selected mux node.menu s).bind fun m => reachedRoot fuel m (s.below n mux.addr) := by
  have hbelow (m : Nat) : reachedRoot fuel m (s.below n mux.addr) = reachedRoot fuel m s.pollHw :=
    reachedRoot_congr fuel m (sameHardware_below s n mux.addr)
  simp only [hbelow]
  obtain ⟨p, menu, numer, denom, rfl⟩ | ⟨menu, div, gate, rfl⟩ := nodeMux_eq_some.mp hmux
  · simp only [reachedRoot, hn]
    rfl
  · simp only [reachedRoot, hn]
    rfl

section
variable {c : Config} {osc : List Oscillator}

/-- A stage over 0 Hz comes to 0 Hz. -/
theorem nodeStage_zero {s : State} (hs : Ready c osc s) (node : Node) :
    ∃ u, Ready c osc u ∧ nodeStage node 0#32 s = .ok 0#32 u := by
  obtain ⟨u, hu, -, -, ⟨v, e, hv⟩ | ⟨h0, -⟩⟩ := nodeStage_cases hs node 0#32
  · exact ⟨u, hu, hv rfl ▸ e⟩
  · exact absurd rfl h0

/-- A walk that reaches a root of 0 Hz comes to 0 Hz. -/
theorem resolveNode_zeroRoot {i : Nat} {o : Oscillator} (ho : osc[i]? = some o) (h0 : o.freq = 0#32) (fuel n : Nat)
    {s : State} (hs : Ready c osc s) (hroot : reachedRoot fuel n s = some i) :
    ∃ u, Ready c osc u ∧ resolveNode fuel n s = .done (.ok 0#32 u) := by
  induction fuel generalizing n s with
  | zero => cases hroot
  | succ fuel ih =>
    cases hn : s.cfg.topo[n]? with
    | none => rw [reachedRoot_noSuchNode hn] at hroot; cases hroot
    | some node =>
      cases hmux : nodeMux node with
      | none =>
        obtain ⟨i', rfl⟩ := nodeMux_eq_none.mp hmux
        rw [reachedRoot_osc hn] at hroot
        cases hroot
        exact ⟨_, (quiet_visit c osc n).ready s hs, h0 ▸ resolveNode_osc hn (hs.osc ▸ ho)⟩
      | some mux =>
        rw [reachedRoot_mux hn hmux] at hroot
        obtain ⟨m, hsel, hroot⟩ := Option.bind_eq_some_iff.mp hroot
        obtain ⟨u, hu, e⟩ := ih m (hs.below n mux.addr) hroot
        obtain ⟨w, hw, e'⟩ := nodeStage_zero ((quiet_ascend c osc).ready u hu) node
        refine ⟨w, hw, ?_⟩
        rw [resolveNode_known hs.resetIn hn hmux hsel, e, Walk.thenStage_done, Res.andThen_ok, e']

/-- A walk over roots that are all 0 Hz is stuck, comes to 0 Hz, or fails at an unknown multiplexer value. -/
theorem resolveNode_zeroRoots (h0 : ∀ o ∈ osc, o.freq = 0#32) (fuel n : Nat) {s : State} (hs : Ready c osc s) :
    (∃ f, resolveNode fuel n s = .stuck f) ∨
      ∃ u, Ready c osc u ∧
        (resolveNode fuel n s = .done (.ok 0#32 u) ∨ resolveNode fuel n s = .done (.failed .badArgument u)) := by
  induction fuel generalizing n s with
  | zero => exact .inl ⟨_, rfl⟩
  | succ fuel ih =>
    cases hn : s.cfg.topo[n]? with
    | none => exact .inl ⟨_, resolveNode_noSuchNode hn⟩
    | some node =>
      have hvisit := (quiet_visit c osc n).ready s hs
      cases hmux : nodeMux node with
      | none =>
        obtain ⟨i, rfl⟩ := nodeMux_eq_none.mp hmux
        cases ho : s.osc[i]? with
        | none => exact .inl ⟨_, resolveNode_noSuchOscillator hn ho⟩
        | some o =>
          have hfreq : o.freq = 0#32 := h0 o (hs.osc ▸ List.mem_of_getElem? ho)
          exact .inr ⟨_, hvisit, .inl (hfreq ▸ resolveNode_osc hn ho)⟩
      | some mux =>
        cases hsel : selected mux node.menu s with
        | none => exact .inr ⟨_, hvisit.readAt mux.addr, .inr (resolveNode_unknown hs.resetIn hn hmux hsel)⟩
        | some m =>
          rw [resolveNode_known hs.resetIn hn hmux hsel]
          rcases ih m (hs.below n mux.addr) with ⟨f, e⟩ | ⟨u, hu, e | e⟩ <;> rw [e]
          · exact .inl ⟨f, rfl⟩
          · obtain ⟨w, hw, e'⟩ := nodeStage_zero ((quiet_ascend c osc).ready u hu) node
            exact .inr ⟨w, hw, .inl (congrArg Walk.done e')⟩
          · exact .inr ⟨u, hu, .inr rfl⟩

end

theorem lt_nNodes_of_reachedRoot {fuel n i : Nat} {s : State} (h : reachedRoot fuel n s = some i) :
    n < s.cfg.nNodes := by
  cases fuel with
  | zero => cases h
  | succ fuel =>
    cases hn : s.cfg.topo[n]? with
    | none => rw [reachedRoot_noSuchNode hn] at h; cases h
    | some node => exact lt_nNodes_of_node hn

/-- Settles O40: the walk from a reached root of 0 Hz, and the walks where every root is 0 Hz. -/
theorem zeroRootsResolveToZero : Obligations.ZeroRootsResolveToZero := by
  have bad (u : State) : (u.raiseFailure .badArgument).status ≠ 2#3 ∧
      ((u.raiseFailure .badArgument).status = 0#3 → (u.raiseFailure .badArgument).value = 0#32) :=
    ⟨by simp [Failure.code], fun h => absurd h Failure.badArgument.code_ne_zero⟩
  refine ⟨fun s a i o hr hroot ho h0 => ?_, fun s t a hr h0 e => ?_⟩
  · have hroot' : reachedRoot (s.cfg.maxDepth + 1) a.toNat s.atRequest = some i :=
      (reachedRoot_congr _ _ (sameHardware_atRequest s)).trans hroot
    obtain ⟨u, hu, hwalk⟩ := resolveNode_zeroRoot ho h0 _ _ (Ready.atRequest ⟨rfl, rfl, hr⟩) hroot'
    have e := exec_resolve (lt_nNodes_of_reachedRoot hroot)
    rw [hwalk, Walk.outcome, finish_eq, Res.conclude_ok _ hu.resetIn] at e
    exact ⟨_, e, rfl, rfl, rfl, rfl⟩
  · by_cases ha : a.toNat < s.cfg.nNodes
    · rw [exec_resolve ha] at e
      rcases resolveNode_zeroRoots h0 (s.cfg.maxDepth + 1) a.toNat (Ready.atRequest ⟨rfl, rfl, hr⟩) with
        ⟨f, hwalk⟩ | ⟨u, hu, hwalk | hwalk⟩ <;> rw [hwalk] at e
      · cases e
      · rw [Walk.outcome, finish_eq, Res.conclude_ok _ hu.resetIn] at e
        cases e
        exact ⟨by simp [okCode], fun _ => rfl⟩
      · rw [Walk.outcome, finish_eq, Res.conclude_failed _ hu.resetIn] at e
        cases e
        exact bad u
    · rw [exec_resolve_outOfRange hr ha] at e
      cases e
      exact bad s

end Sys2Proof.Machine
end

section
/-!
SUPPORT. The monitor's queries and STAT_CLEAR, whatever the clock hardware does before each transfer (41_pll_monitor.md
R141 to R146; O13 to O16, O18).
-/

namespace Sys2Proof

/-- A table of three entries holds those of the three PLLs, and no other. -/
theorem PerPll.mem_toList_iff {α : Type} {t : PerPll α} {a : α} : a ∈ t.toList ↔ ∃ p, a = t.get p := by
  constructor
  · simp only [PerPll.toList, List.mem_cons, List.not_mem_nil, or_false]
    rintro (h | h | h)
    · exact ⟨.primary, h⟩
    · exact ⟨.peripheral, h⟩
    · exact ⟨.memory, h⟩
  · rintro ⟨p, rfl⟩
    exact t.get_mem_toList p

end Sys2Proof

namespace Sys2Proof.Machine

/-! The mask of STAT_CLEAR -/

/-- A word has no bit outside a mask exactly where each of its bits is one of the mask. -/
theorem and_not_eq_zero_iff {a m : Word} : a &&& ~~~m = 0#32 ↔ ∀ b, a.getLsbD b = true → m.getLsbD b = true := by
  have outside {b : Nat} (hb : b < 32) : (a &&& ~~~m).getLsbD b = (a.getLsbD b && !m.getLsbD b) := by
    rw [BitVec.getLsbD_and, BitVec.getLsbD_not, decide_eq_true hb, Bool.true_and]
  constructor
  · intro h b ha
    have hbit := outside (BitVec.lt_of_getLsbD ha)
    rw [h, BitVec.getLsbD_zero, ha, Bool.true_and] at hbit
    simpa using hbit.symm
  · intro h
    refine BitVec.eq_of_getLsbD_eq fun b hb => ?_
    rw [outside hb, BitVec.getLsbD_zero]
    cases ha : a.getLsbD b with
    | false => rfl
    | true => rw [h b ha]; rfl

theorem maskAllowed_iff {c : Config} {a : Word} : maskAllowed c a = true ↔ a &&& ~~~(allowedMask c) = 0#32 :=
  beq_iff_eq

/-- The bits of `ALLOWED_MASK` are the latches within a word (R146). -/
theorem getLsbD_allowedMask_iff {c : Config} {b : Nat} (hb : b < 32) :
    (allowedMask c).getLsbD b = true ↔ ∃ p, b = c.achBit.get p ∨ b = c.lostBit.get p := by
  simp only [allowedMask, getLsbD_bitsMask, hb, decide_true, Bool.true_and, decide_eq_true_eq, List.mem_append,
    PerPll.mem_toList_iff, exists_or]

/-- Settles O18, bit by bit. -/
theorem maskAcceptedExactlyWithinLatches : Obligations.MaskAcceptedExactlyWithinLatches := by
  intro c a
  rw [maskAllowed_iff, and_not_eq_zero_iff]
  exact forall₂_congr fun b ha => getLsbD_allowedMask_iff (BitVec.lt_of_getLsbD ha)

/-! What the hardware's moves leave of the block -/

theorem keepsBlock_pollHw (s : State) : KeepsBlock s s.pollHw := by simp [KeepsBlock]

theorem keepsTransient_pollHw (s : State) : KeepsTransient s s.pollHw := by simp [KeepsTransient]

theorem KeepsBlock.trans {s t u : State} (h : KeepsBlock s t) (h' : KeepsBlock t u) : KeepsBlock s u := by
  obtain ⟨hc, ho, ha, hb, ht⟩ := h
  obtain ⟨hc', ho', ha', hb', ht'⟩ := h'
  exact ⟨hc'.trans hc, ho'.trans ho, ha'.trans ha, hb'.trans hb, ht'.trans ht⟩

theorem KeepsTransient.trans {s t u : State} (h : KeepsTransient s t) (h' : KeepsTransient t u) :
    KeepsTransient s u := by
  obtain ⟨ha, hs, hk, hi, hr⟩ := h
  obtain ⟨ha', hs', hk', hi', hr'⟩ := h'
  exact ⟨ha'.trans ha, hs'.trans hs, hk'.trans hk, hi'.trans hi, hr'.trans hr⟩

theorem answeredOk_succeed (s : State) (v : Word) : AnsweredOk (s.succeed v) v := ⟨rfl, rfl, rfl, rfl⟩

/-! One read and an answer -/

/-- An operation of one read and an answer leaves everything but the response as the hardware's moves made it. -/
theorem succeed_readAt_frame (s : State) (a v : Word) :
    AnsweredOk ((s.readAt a).succeed v) v ∧ Issued s ((s.readAt a).succeed v) [.rd a (s.pollHw.readReg a)] ∧
      KeepsBlock s ((s.readAt a).succeed v) ∧ KeepsTransient s ((s.readAt a).succeed v) ∧
      KeepsRegisters s.pollHw ((s.readAt a).succeed v) ∧ KeepsSurroundings s.pollHw ((s.readAt a).succeed v) :=
  ⟨answeredOk_succeed _ v, s.readAt_events a, keepsBlock_pollHw s, keepsTransient_pollHw s, .of_mem rfl rfl,
    ⟨rfl, rfl, rfl, rfl, rfl⟩⟩

theorem State.readAt_resetIn (s : State) (a : Word) : (s.readAt a).resetIn = s.resetIn := s.pollHw_resetIn

theorem State.readAt_cfg (s : State) (a : Word) : (s.readAt a).cfg = s.cfg := s.pollHw_cfg

theorem read32_readAt {s : State} (hr : s.resetIn = none) (a : Word) :
    read32 a s = .ok (s.pollHw.readReg a) (s.readAt a) := read32_noReset a hr

/-- PLL_LOCKED with no reset coming (R141). -/
theorem exec_pllLocked {s : State} (hr : s.resetIn = none) (p : PllId) :
    exec (.pllLocked (pllOperand p)) s = .next ((s.readAt s.cfg.statusAddr).succeed
      (boolWord ((s.pollHw.readReg s.cfg.statusAddr).getLsbD (s.cfg.lockedBit.get p)))) := by
  simp only [exec, execPllLocked, pllIndex?_pllOperand, read32_readAt hr, Res.andThen_ok, finish_eq, State.readAt_cfg]
  rw [Res.conclude_ok _ ((s.readAt_resetIn _).trans hr)]

/-- Settles O13. -/
theorem pllLockedAnswersTheLockBit : Obligations.PllLockedAnswersTheLockBit := fun s p hr =>
  ⟨_, exec_pllLocked hr p, succeed_readAt_frame s s.cfg.statusAddr _⟩

/-! Two reads and an answer -/

/-- To the hardware, a read is no more than the point that it moves at. -/
theorem State.pollHw_readAt (s : State) (a : Word) :
    (s.readAt a).pollHw = s.pollHw.pollHw.record (.rd a (s.pollHw.readReg a)) := State.pollHw_record_comm _ _

/-- What a register holds at the second of two reads. -/
theorem State.readReg_pollHw_readAt (s : State) (a b : Word) :
    (s.readAt a).pollHw.readReg b = s.pollHw.pollHw.readReg b := by
  rw [State.pollHw_readAt]
  rfl

/-- PLL_BYPASSED with no reset coming (R142). -/
theorem exec_pllBypassed {s : State} (hr : s.resetIn = none) (p : PllId) :
    exec (.pllBypassed (pllOperand p)) s = .next (((s.readAt s.cfg.ctrlAddr).readAt s.cfg.bypassAddr).succeed
      (boolWord ((s.pollHw.readReg s.cfg.ctrlAddr).getLsbD s.cfg.safemodeBit ||
        (s.pollHw.pollHw.readReg s.cfg.bypassAddr).getLsbD (s.cfg.bypassBit.get p)))) := by
  have hr' := (s.readAt_resetIn s.cfg.ctrlAddr).trans hr
  simp only [exec, execPllBypassed, pllIndex?_pllOperand, read32_readAt hr, Res.andThen_ok, State.readAt_cfg,
    read32_readAt hr', State.readReg_pollHw_readAt, finish_eq]
  rw [Res.conclude_ok _ ((State.readAt_resetIn _ _).trans hr')]

/-- Settles O14: what the first read does, and then what the second does. -/
theorem pllBypassedAnswersEitherBit : Obligations.PllBypassedAnswersEitherBit := by
  intro s p hr
  obtain ⟨-, hissued, hblock, htransient, -, -⟩ :=
    succeed_readAt_frame (s.readAt s.cfg.ctrlAddr) s.cfg.bypassAddr 0#32
  rw [State.readReg_pollHw_readAt] at hissued
  refine ⟨_, exec_pllBypassed hr p, answeredOk_succeed _ _, ?_, (keepsBlock_pollHw s).trans hblock,
    (keepsTransient_pollHw s).trans htransient, ?_⟩
  · exact Issued.append (s.readAt_events s.cfg.ctrlAddr) hissued
  · rw [State.readAt, State.pollHw_readAt]
    exact ⟨.of_mem rfl rfl, ⟨rfl, rfl, rfl, rfl, rfl⟩⟩

/-- Settles O15: the answer is the or of the two bits, row by row. -/
theorem bypassTruthTable : Obligations.BypassTruthTable := by
  intro s p hu
  refine ⟨_, exec_pllBypassed_undisturbed hu p, ?_⟩
  rw [State.byp]
  refine ⟨fun hs hb => ?_, fun hs hb => ?_, fun hs hb => ?_, fun hs hb => ?_⟩ <;> rw [hs, hb]
  all_goals exact answeredOk_succeed _ _

/-! One write -/

/-- A write, recorded and answered, leaves everything but the response as the class rule of its register does. -/
theorem succeed_writeReg_frame (u : State) (a v x : Word) (e : Event) :
    Issued u (((u.writeReg a v).record e).succeed x) [e] ∧ KeepsBlock u (((u.writeReg a v).record e).succeed x) ∧
      KeepsTransient u (((u.writeReg a v).record e).succeed x) ∧
      KeepsRegisters (u.writeReg a v) (((u.writeReg a v).record e).succeed x) ∧
      KeepsSurroundings u (((u.writeReg a v).record e).succeed x) := by
  refine ⟨?_, ?_, ?_, .of_mem rfl rfl, ?_⟩
  · simp [Issued]
  · simp [KeepsBlock]
  · simp [KeepsTransient]
  · simp [KeepsSurroundings]

/-- STAT_CLEAR of an allowed mask, with no reset coming (R144). -/
theorem exec_statClear {s : State} (hr : s.resetIn = none) {a : Word} (hm : maskAllowed s.cfg a = true) :
    exec (.statClear a) s =
      .next (((s.pollHw.writeReg s.cfg.statclrAddr a).record (.wr s.cfg.statclrAddr a)).succeed 0#32) := by
  simp only [exec, execStatClear, hm, if_true, write32_noReset _ _ hr, Res.andThen_ok, finish_eq]
  rw [Res.conclude_ok _ (by simpa using hr)]

/-- Settles O16. -/
theorem statClearWritesTheMask : Obligations.StatClearWritesTheMask := by
  intro s a hr hm
  obtain ⟨hissued, hblock, htransient, hregs, hsurr⟩ :=
    succeed_writeReg_frame s.pollHw s.cfg.statclrAddr a 0#32 (.wr s.cfg.statclrAddr a)
  rw [Issued, State.pollHw_events] at hissued
  exact ⟨_, exec_statClear hr (maskAllowed_iff.mpr hm), answeredOk_succeed _ _, hissued,
    (keepsBlock_pollHw s).trans hblock, (keepsTransient_pollHw s).trans htransient, hregs, hsurr⟩

end Sys2Proof.Machine
end

section
/-!
SUPPORT. The three gate operations (41_pll_monitor.md R147 to R150): their shared check (O19), the two
read-modify-writes (O20, O21) and the query (O22), whatever the clock hardware does before each transfer.
-/

namespace Sys2Proof.Machine

/-! The shared check -/

/-- The two failures of the shared check (R150). -/
theorem gateOperand_error {c : Config} {a : Word} {k : Failure} :
    gateOperand c a = .error k ↔
      (c.nNodes ≤ a.toNat ∧ k = .badArgument) ∨
        (a.toNat < c.nNodes ∧ gateOf c a.toNat = none ∧ k = .unsupportedCapability) := by
  unfold gateOperand nodeId?
  by_cases h : a.toNat < c.nNodes
  · cases hg : gateOf c a.toNat <;> simp [h, hg, eq_comm]
  · simp [h, Nat.le_of_not_lt h, eq_comm]

/-- What the shared check finds is what the command word fails with (60_exceptions.md R202, R204). -/
theorem commandFailure_of_gateOperand {c : Config} {a : Word} {i : Instr} {k : Failure}
    (hi : i = .clkEnable a ∨ i = .clkDisable a ∨ i = .clkEnabled a) (hg : gateOperand c a = .error k) :
    commandFailure c i = some k := by
  rcases hi with rfl | rfl | rfl <;> simp only [commandFailure, hg]

/-- Settles O19: where the check fails the failure is all there is; where it passes neither premise holds. -/
theorem gateChecksPrecedeAccess : Obligations.GateChecksPrecedeAccess := by
  intro s a i hr hi
  cases hg : gateOperand s.cfg a with
  | error k =>
    obtain ⟨hanswer, hframe⟩ := raiseFailure_frame s k
    refine ⟨_, exec_of_commandFailure hr (commandFailure_of_gateOperand hi hg), ?_, ?_, fun _ => hframe⟩
    · intro hout
      rcases gateOperand_error.mp hg with ⟨-, rfl⟩ | ⟨hin, -, -⟩
      · exact hanswer
      · exact absurd hin (Nat.not_lt.mpr hout)
    · intro hin _
      rcases gateOperand_error.mp hg with ⟨hout, -⟩ | ⟨-, -, rfl⟩
      · exact absurd hin (Nat.not_lt.mpr hout)
      · exact hanswer
  | ok g =>
    obtain ⟨hin, hgate⟩ := gateOperand_ok.mp hg
    have hends : ∃ t, exec i s = .next t := by rcases hi with rfl | rfl | rfl <;> exact ⟨_, rfl⟩
    obtain ⟨t, e⟩ := hends
    refine ⟨t, e, fun hout => absurd hin (Nat.not_lt.mpr hout), fun _ hnone => ?_, ?_⟩
    · simp [hgate] at hnone
    · rintro (hout | hnone)
      · exact absurd hin (Nat.not_lt.mpr hout)
      · simp [hgate] at hnone

/-! The query -/

/-- CLK_ENABLED of a node with a gate, with no reset coming (R149). -/
theorem exec_clkEnabled {s : State} (hr : s.resetIn = none) {a : Word} {g : Gate}
    (hg : gateOperand s.cfg a = .ok g) :
    exec (.clkEnabled a) s =
      .next ((s.readAt g.addr).succeed (boolWord ((s.pollHw.readReg g.addr).getLsbD g.bit))) := by
  simp only [exec, execClkEnabled, hg, read32_readAt hr, Res.andThen_ok, finish_eq]
  rw [Res.conclude_ok _ ((s.readAt_resetIn _).trans hr)]

/-- Settles O22. -/
theorem clkEnabledReadsTheGateBit : Obligations.ClkEnabledReadsTheGateBit := fun s _ g hr ha hg =>
  ⟨_, exec_clkEnabled hr (gateOperand_ok.mpr ⟨ha, hg⟩), succeed_readAt_frame s g.addr _⟩

/-! The read-modify-writes -/

/-- A write of the plain class changes what its own register reads as, and no other (R58 (a)). -/
theorem State.readReg_writeReg_plain (s : State) {a : Word} (v x : Word) (h : isStatusReg s.cfg a = false) :
    (s.writeReg a v).readReg x = if x = a then v else s.readReg x := by
  by_cases hx : x = a
  · subst hx
    rw [if_pos rfl, State.readReg_plain _ (by simpa using h), State.word_writeReg_plain s v x h, if_pos rfl]
  · have hstatus : s.cfg.statusAddr ≠ a := by
      rintro rfl
      simp [isStatusReg] at h
    simp only [State.readReg, State.writeReg_cfg, State.word_writeReg_plain s v _ h, if_neg hx, if_neg hstatus]

/-- The effect of a write on the registers depends on the tables and the register space alone. -/
theorem keepsRegisters_writeReg_congr {s u : State} (hc : u.cfg = s.cfg) (hm : u.mem = s.mem) (a v : Word) :
    KeepsRegisters (s.writeReg a v) (u.writeReg a v) := by
  refine .of_word (by simpa using hc) fun x => ?_
  rw [State.word_writeReg, State.word_writeReg, hc, State.word_congr hm]

/-- The state in which a read-modify-write of the register at `a` makes its write: the word read is held in `rmw`
(10_state.md R46 (c)), and the hardware has moved before each transfer. -/
def State.beforeWriteBack (s : State) (a : Word) : State :=
  { s.pollHw.pollHw with rmw := s.pollHw.readReg a }.record (.rd a (s.pollHw.readReg a))

/-- A read-modify-write by `f`, with no reset coming: the word written is made of the word read, whatever happened in
between (20_memory.md R55 to R57). -/
theorem readModifyWrite_noReset {s : State} (hr : s.resetIn = none) (a : Word) (f : Word → Word) :
    ((read32 a s).andThen fun w s => write32 a (f w) { s with rmw := w }) =
      .ok () (((s.beforeWriteBack a).writeReg a (f (s.pollHw.readReg a))).record
        (.wr a (f (s.pollHw.readReg a)))) := by
  have hmoves : ({ s.readAt a with rmw := s.pollHw.readReg a } : State).pollHw = s.beforeWriteBack a := by
    rw [State.pollHw_rmw_comm, State.pollHw_readAt]
    rfl
  have hwrite := write32_noReset (s := { s.readAt a with rmw := s.pollHw.readReg a }) a (f (s.pollHw.readReg a))
    ((s.readAt_resetIn a).trans hr)
  rw [hmoves] at hwrite
  rw [read32_readAt hr, Res.andThen_ok, hwrite]

/-- From `s` to `t` an operation read the word `w` from the register at `a`, wrote `v` back and answered OK. -/
structure WroteBack (s : State) (a w v : Word) (t : State) : Prop where
  answered : AnsweredOk t 0#32
  issued : Issued s t [.rd a w, .wr a v]
  block : KeepsBlock s t
  transient : KeepsTransient { s with rmw := w } t
  registers : KeepsRegisters (s.pollHw.pollHw.writeReg a v) t
  surroundings : KeepsSurroundings s.pollHw.pollHw t

/-- A read-modify-write by `f` and the answer OK do so. -/
theorem wroteBack_readModifyWrite {s : State} (hr : s.resetIn = none) (a : Word) (f : Word → Word) :
    ∃ t, finish (((read32 a s).andThen fun w s => write32 a (f w) { s with rmw := w }).andThen fun _ s =>
      .ok 0#32 s) = .next t ∧ WroteBack s a (s.pollHw.readReg a) (f (s.pollHw.readReg a)) t := by
  obtain ⟨hissued, hblock, htransient, hregs, hsurr⟩ := succeed_writeReg_frame (s.beforeWriteBack a) a
    (f (s.pollHw.readReg a)) 0#32 (.wr a (f (s.pollHw.readReg a)))
  rw [readModifyWrite_noReset hr, Res.andThen_ok, finish_eq,
    Res.conclude_ok _ (by simpa [State.beforeWriteBack] using hr)]
  have hread : Issued s (s.beforeWriteBack a) [.rd a (s.pollHw.readReg a)] := by
    simp [Issued, State.beforeWriteBack]
  have hwrite := keepsRegisters_writeReg_congr (s := s.pollHw.pollHw) (u := s.beforeWriteBack a) rfl rfl a
    (f (s.pollHw.readReg a))
  refine ⟨_, rfl, answeredOk_succeed _ _, hread.append hissued, ?_, ?_, fun x => (hregs x).trans (hwrite x), hsurr⟩
  · exact ((keepsBlock_pollHw s).trans (keepsBlock_pollHw _)).trans hblock
  · refine KeepsTransient.trans ?_ htransient
    simp [KeepsTransient, State.beforeWriteBack]

/-- In a register of the plain class the word written back is what it reads as, and no other register changes. -/
theorem WroteBack.readReg_plain {s t : State} {a w v : Word} (h : WroteBack s a w v t)
    (hplain : isStatusReg s.cfg a = false) (x : Word) :
    t.readReg x = if x = a then v else s.pollHw.pollHw.readReg x := by
  rw [h.registers x, State.readReg_writeReg_plain _ _ _ (by simpa using hplain)]

/-- CLK_ENABLE of a node with a gate (R147). -/
theorem wroteBack_clkEnable {s : State} (hr : s.resetIn = none) {a : Word} {g : Gate}
    (hg : gateOperand s.cfg a = .ok g) :
    ∃ t, exec (.clkEnable a) s = .next t ∧
      WroteBack s g.addr (s.pollHw.readReg g.addr) (s.pollHw.readReg g.addr ||| bitMask g.bit) t := by
  simp only [exec, execClkEnable, hg]
  exact wroteBack_readModifyWrite hr g.addr (· ||| bitMask g.bit)

/-- CLK_DISABLE of a node with a gate (R148). -/
theorem wroteBack_clkDisable {s : State} (hr : s.resetIn = none) {a : Word} {g : Gate}
    (hg : gateOperand s.cfg a = .ok g) :
    ∃ t, exec (.clkDisable a) s = .next t ∧
      WroteBack s g.addr (s.pollHw.readReg g.addr) (s.pollHw.readReg g.addr &&& ~~~(bitMask g.bit)) t := by
  simp only [exec, execClkDisable, hg]
  exact wroteBack_readModifyWrite hr g.addr (· &&& ~~~(bitMask g.bit))

/-- A bit of a word with bit `k` set. -/
theorem getLsbD_or_bitMask (w : Word) (k b : Nat) :
    (w ||| bitMask k).getLsbD b = ((decide (b < 32) && decide (b = k)) || w.getLsbD b) := by
  rw [BitVec.getLsbD_or, getLsbD_bitMask, Bool.or_comm]

/-- A bit of a word with bit `k` cleared. -/
theorem getLsbD_and_not_bitMask (w : Word) (k b : Nat) :
    (w &&& ~~~(bitMask k)).getLsbD b = (w.getLsbD b && !decide (b = k)) := by
  rw [BitVec.getLsbD_and, BitVec.getLsbD_not, getLsbD_bitMask]
  cases hw : w.getLsbD b with
  | false => rfl
  | true => simp [BitVec.lt_of_getLsbD hw]

/-- Settles O20. -/
theorem clkEnableSetsTheGateBit : Obligations.ClkEnableSetsTheGateBit := by
  intro s a g hr ha hg
  obtain ⟨t, e, h⟩ := wroteBack_clkEnable hr (gateOperand_ok.mpr ⟨ha, hg⟩)
  obtain ⟨hacc, hsp, hstk, hiter, hrmw⟩ := h.transient
  refine ⟨t, e, h.answered, h.issued, h.block, hacc, hsp, hstk, hiter, hrmw, h.registers, h.surroundings,
    fun hplain => ⟨fun b => ?_, fun x hx => ?_⟩⟩
  · rw [h.readReg_plain hplain, if_pos rfl, getLsbD_or_bitMask]
  · rw [h.readReg_plain hplain, if_neg hx]

/-- Settles O21. -/
theorem clkDisableClearsTheGateBit : Obligations.ClkDisableClearsTheGateBit := by
  intro s a g hr ha hg
  obtain ⟨t, e, h⟩ := wroteBack_clkDisable hr (gateOperand_ok.mpr ⟨ha, hg⟩)
  obtain ⟨hacc, hsp, hstk, hiter, hrmw⟩ := h.transient
  refine ⟨t, e, h.answered, h.issued, h.block, hacc, hsp, hstk, hiter, hrmw, h.registers, h.surroundings,
    fun hplain => ⟨fun b => ?_, fun x hx => ?_⟩⟩
  · rw [h.readReg_plain hplain, if_pos rfl, getLsbD_and_not_bitMask]
  · rw [h.readReg_plain hplain, if_neg hx]

end Sys2Proof.Machine
end

section
/-!
SUPPORT. SETTLE_WAIT read by read, with no reset coming (42_settle_and_lifecycle.md R171, R172): the poll loop is a
number of iterations, then its answer (O25, O26).
-/

namespace Sys2Proof.Machine

/-! What the iterations leave -/

@[simp] theorem afterRead_cfg (s : State) : (afterRead s).cfg = s.cfg := s.pollHw_cfg

@[simp] theorem afterRead_resetIn (s : State) : (afterRead s).resetIn = s.resetIn := s.pollHw_resetIn

/-- The iterations leave the static tables, the request registers and the oscillator table. -/
theorem keepsBlock_afterReads (k : Nat) (s : State) : KeepsBlock s (afterReads k s) := by
  induction k generalizing s with
  | zero => exact ⟨rfl, rfl, rfl, rfl, rfl⟩
  | succ k ih => exact (keepsBlock_pollHw s).trans (ih (afterRead s))

/-- Of the transient registers they change the count alone, once for each read (R171). -/
theorem keepsTransient_afterReads (k : Nat) (s : State) :
    KeepsTransient { s with iter := s.iter + BitVec.ofNat 32 k } (afterReads k s) := by
  induction k generalizing s with
  | zero => simp [KeepsTransient, afterReads]
  | succ k ih =>
    have hcount : s.iter + 1#32 + BitVec.ofNat 32 k = s.iter + BitVec.ofNat 32 (k + 1) := by
      rw [BitVec.add_assoc, Nat.add_comm k 1, BitVec.ofNat_add]
    have hone : KeepsTransient { s with iter := s.iter + BitVec.ofNat 32 (k + 1) }
        { afterRead s with iter := (afterRead s).iter + BitVec.ofNat 32 k } := by
      simp [KeepsTransient, afterRead, hcount]
    exact hone.trans (ih (afterRead s))

/-- No iteration schedules a reset. -/
theorem afterReads_resetIn (k : Nat) (s : State) : (afterReads k s).resetIn = s.resetIn := by
  induction k generalizing s with
  | zero => rfl
  | succ k ih => exact (ih (afterRead s)).trans (afterRead_resetIn s)

/-- Each iteration issues its read and nothing else. -/
theorem issued_afterReads (k : Nat) (s : State) :
    Issued s (afterReads k s)
      ((List.range k).map fun j => .rd s.cfg.statAddr (nextStatWord (afterReads j s))) := by
  induction k generalizing s with
  | zero => exact (List.append_nil _).symm
  | succ k ih =>
    have hrest := ih (afterRead s)
    rw [afterRead_cfg] at hrest
    rw [List.range_succ_eq_map, List.map_cons, List.map_map]
    exact Issued.append (t := afterRead s) (s.readAt_events s.cfg.statAddr) hrest

/-! The poll loop -/

/-- One turn of the loop (R171). -/
theorem settleLoop_succ {s : State} (hr : s.resetIn = none) (n : Nat) :
    settleLoop (n + 1) s = if nextReadBusy s then settleLoop n (afterRead s) else .ok 0#32 (afterRead s) := by
  simp only [settleLoop, read32_readAt hr, Res.andThen_ok, State.readAt_cfg]
  rfl

/-- The loop ends at the first read that finds the busy bit 0, where that read is permitted (R172 (a)). -/
theorem settleLoop_firstClear {n k : Nat} {s : State} (hr : s.resetIn = none) (hk : k < n)
    (hbusy : ∀ j, j < k → nextReadBusy (afterReads j s) = true) (hclear : nextReadBusy (afterReads k s) = false) :
    settleLoop n s = .ok 0#32 (afterReads (k + 1) s) := by
  induction k generalizing n s with
  | zero =>
    obtain ⟨m, rfl⟩ : ∃ m, n = m + 1 := ⟨n - 1, by omega⟩
    have hnow : nextReadBusy s = false := hclear
    rw [settleLoop_succ hr, hnow]
    rfl
  | succ k ih =>
    obtain ⟨m, rfl⟩ : ∃ m, n = m + 1 := ⟨n - 1, by omega⟩
    have hnow : nextReadBusy s = true := hbusy 0 (Nat.succ_pos k)
    rw [settleLoop_succ hr, hnow, if_pos rfl]
    exact ih ((afterRead_resetIn s).trans hr) (by omega) (fun j hj => hbusy (j + 1) (by omega)) hclear

/-- It ends in a timeout where every permitted read finds the busy bit 1 (R172 (b)). -/
theorem settleLoop_timeout {n : Nat} {s : State} (hr : s.resetIn = none)
    (hbusy : ∀ j, j < n → nextReadBusy (afterReads j s) = true) :
    settleLoop n s = .failed .timeout (afterReads n s) := by
  induction n generalizing s with
  | zero => rfl
  | succ n ih =>
    have hnow : nextReadBusy s = true := hbusy 0 (Nat.succ_pos n)
    rw [settleLoop_succ hr, hnow, if_pos rfl]
    exact ih ((afterRead_resetIn s).trans hr) fun j hj => hbusy (j + 1) (by omega)

theorem exec_settleWait (s : State) :
    exec .settleWait s = .next (settleLoop s.cfg.settleBound { s with iter := 0#32 }).conclude := rfl

/-- Settles O25: the loop's result is the answer, after the reads up to the first clear one. -/
theorem settleSucceedsAtFirstClearRead : Obligations.SettleSucceedsAtFirstClearRead := by
  intro s k hr hbound hk s0 hbusy hclear
  have hr0 : s0.resetIn = none := hr
  obtain ⟨hacc, hsp, hstk, hiter, hrmw⟩ := keepsTransient_afterReads (k + 1) s0
  refine ⟨(afterReads (k + 1) s0).succeed 0#32, ?_, answeredOk_succeed _ _, issued_afterReads (k + 1) s0, ?_,
    keepsBlock_afterReads (k + 1) s0, hacc, hsp, hstk, hrmw, .of_mem rfl rfl, ⟨rfl, rfl, rfl, rfl, rfl⟩⟩
  · rw [exec_settleWait, settleLoop_firstClear hr0 hk hbusy hclear,
      Res.conclude_ok _ ((afterReads_resetIn _ _).trans hr0)]
  · have hcount : ((afterReads (k + 1) s0).succeed 0#32).iter = BitVec.ofNat 32 (k + 1) :=
      hiter.trans (BitVec.zero_add _)
    rw [hcount, BitVec.toNat_ofNat, Nat.mod_eq_of_lt (by omega)]

/-- Settles O26: the loop times out, and the failure leaves what the reads left. -/
theorem settleTimesOutAtTheBound : Obligations.SettleTimesOutAtTheBound := by
  intro s hr s0 hbusy
  have hr0 : s0.resetIn = none := hr
  obtain ⟨hacc, hsp, hstk, -, hrmw⟩ := keepsTransient_afterReads s.cfg.settleBound s0
  refine ⟨(afterReads s.cfg.settleBound s0).raiseFailure .timeout, ?_, ⟨rfl, rfl, rfl⟩,
    issued_afterReads s.cfg.settleBound s0, keepsBlock_afterReads _ s0, hacc, hsp, hstk, hrmw, .of_mem rfl rfl,
    ⟨rfl, rfl, rfl, rfl, rfl⟩⟩
  rw [exec_settleWait, settleLoop_timeout hr0 hbusy, Res.conclude_failed _ ((afterReads_resetIn _ _).trans hr0)]

end Sys2Proof.Machine
end

section
/-!
SUPPORT. The lifecycle of each PLL (42_settle_and_lifecycle.md R176 to R183): no operation of the block moves it (O44), a
host write moves it by one rule (O55) or is refused (O56), and the hardware's moves of lock latch their flags (O54).
-/

namespace Sys2Proof.Machine

/-! Operations of the block -/

/-- The basic updates of every operation leave the lifecycle, with no move of the hardware scheduled. -/
theorem stable_life (c : Config) (i : Instr) (l : PerPll Life) :
    Stable c i fun u => u.cfg = c ∧ u.hw = [] ∧ u.life = l where
  cfg _ h := h.1
  poll s h := by rwa [State.pollHw_of_nil h.2.1]
  countdown _ _ _ h := h
  read _ _ _ h := h
  write s a v _ _ h := by simpa using h
  rmw _ _ h := h
  acc _ _ h := h
  sp _ _ h := h
  stk _ _ h := h
  iter _ _ h := h
  osc _ _ _ _ _ h := h

/-- Settles O44, reset during the operation included. -/
theorem operationsDoNotMoveTheLifecycle : Obligations.OperationsDoNotMoveTheLifecycle := by
  intro i s t hhw e
  obtain ⟨u, ⟨-, -, hu⟩, ⟨-, v, rfl⟩ | ⟨-, k, rfl⟩ | ⟨-, rfl⟩⟩ := (stable_life s.cfg i s.life).exec ⟨rfl, hhw, rfl⟩ e
  · exact hu
  · exact hu
  · exact hu

/-! Direct writes of the host -/

/-- The lifecycle state that a host write from `before` to `after` takes a PLL in `l` to (R177, R178, R179, R182). -/
def lifeAfterWrite (before after : State) (p : PllId) (l : Life) : Life :=
  if bypassAsserted before after p then .bypassed
  else if bypassLifted before after p then .locking
  else if before.ratio p ≠ after.ratio p then .reconfiguring
  else l

/-- A PLL's part that completes is no illegal ratio change, and moves its PLL by the rule. -/
theorem hostMovesPll_life_same {s t before after : State} {p : PllId}
    (e : s.hostMovesPll before after p = .next t) :
    (before.ratio p ≠ after.ratio p → s.life.get p = .bypassed ∨ s.life.get p = .reconfiguring) ∧
      t.life.get p = lifeAfterWrite before after p (s.life.get p) := by
  rcases s.hostMovesPll_cases before after p with ⟨-, he⟩ | ⟨l, hl, hcases⟩
  · rw [he] at e
    cases e
  · have hlegal : (before.ratio p = after.ratio p ∧ l = s.life.get p) ∨
        (before.ratio p ≠ after.ratio p ∧ l = .reconfiguring ∧
          (s.life.get p = .bypassed ∨ s.life.get p = .reconfiguring)) := by
      simpa only [decide_eq_false_iff_not, decide_eq_true_eq, not_not] using lifeAfterRatio_some hl
    refine ⟨fun hne => ?_, ?_⟩
    · obtain ⟨heq, -⟩ | ⟨-, -, hl⟩ := hlegal
      · exact absurd heq hne
      · exact hl
    · rcases hcases with ⟨ha, he⟩ | ⟨ha, hlift, he⟩ | ⟨ha, hlift, he⟩ <;> rw [he] at e <;> cases e
      · simp [lifeAfterWrite, ha]
      · simp [lifeAfterWrite, ha, hlift]
      · obtain ⟨heq, rfl⟩ | ⟨hne, rfl, -⟩ := hlegal
        · simp [lifeAfterWrite, ha, hlift, heq]
        · simp [lifeAfterWrite, ha, hlift, hne]

/-- In a direct write that completes, the part of each PLL finds its lifecycle as it was before the write and leaves it as
it is after. -/
theorem part_of_hostWrite {s t : State} {addr v : Word} (e : s.hostWrite addr v = .next t) (p : PllId) :
    ∃ u u' : State, u.hostMovesPll s (s.writeReg addr v) p = .next u' ∧ u.life.get p = s.life.get p ∧
      t.life.get p = u'.life.get p := by
  obtain ⟨-, t1, t2, e1, e2, e3⟩ := State.hostWrite_next e
  have before1 {q : PllId} (h : q ≠ .primary) : t1.life.get q = s.life.get q :=
    (hostMovesPll_life e1 h).trans (by rw [State.writeReg_life])
  cases p with
  | primary =>
    exact ⟨_, t1, e1, by rw [State.writeReg_life],
      (hostMovesPll_life (q := .primary) e3 (by decide)).trans (hostMovesPll_life e2 (by decide))⟩
  | peripheral => exact ⟨t1, t2, e2, before1 (by decide), hostMovesPll_life e3 (by decide)⟩
  | memory => exact ⟨t2, t, e3, (hostMovesPll_life e2 (by decide)).trans (before1 (by decide)), rfl⟩

/-- What a direct write that completes does to each PLL's lifecycle. -/
theorem life_of_hostWrite {s t : State} {addr v : Word} (e : s.hostWrite addr v = .next t) (p : PllId) :
    t.life.get p = lifeAfterWrite s (s.writeReg addr v) p (s.life.get p) := by
  obtain ⟨u, u', hpart, hbefore, hafter⟩ := part_of_hostWrite e p
  rw [hafter, (hostMovesPll_life_same hpart).2, hbefore]

theorem bypassAsserted_iff {s w : State} {p : PllId} :
    bypassAsserted s w p = true ↔
      (s.safeMode = false ∧ w.safeMode = true) ∨ (s.bypassSelect p = false ∧ w.bypassSelect p = true) := by
  simp [bypassAsserted]

theorem bypassLifted_iff {s w : State} {p : PllId} :
    bypassLifted s w p = true ↔ s.byp p = true ∧ w.byp p = false := by
  simp [bypassLifted]

/-- Settles O55: the rule, with its causes spelled out. -/
theorem hostWritesMoveTheLifecycle : Obligations.HostWritesMoveTheLifecycle := by
  intro s t addr v p e w
  rw [life_of_hostWrite e p, lifeAfterWrite]
  simp only [bypassAsserted_iff, bypassLifted_iff, w]

/-- A host write, or a part of it, completed or was refused as an illegal ratio change. -/
def CompletesOrIllegal (o : Host.Outcome State Fault Refusal) : Prop :=
  (∃ t, o = .next t) ∨ ∃ q, o = .refused (.illegalRatioWrite q)

theorem completesOrIllegal_hostMovesPll (s before after : State) (p : PllId) :
    CompletesOrIllegal (s.hostMovesPll before after p) := by
  rcases s.hostMovesPll_cases before after p with ⟨-, he⟩ | ⟨l, -, ⟨-, he⟩ | ⟨-, -, he⟩ | ⟨-, -, he⟩⟩
  · exact .inr ⟨p, he⟩
  · exact .inl ⟨_, he⟩
  · exact .inl ⟨_, he⟩
  · exact .inl ⟨_, he⟩

theorem CompletesOrIllegal.andNext {o : Host.Outcome State Fault Refusal}
    {k : State → Host.Outcome State Fault Refusal} (h : CompletesOrIllegal o) (hk : ∀ s, CompletesOrIllegal (k s)) :
    CompletesOrIllegal (andNext o k) := by
  obtain ⟨t, rfl⟩ | ⟨q, rfl⟩ := h
  · exact hk t
  · exact .inr ⟨q, rfl⟩

/-- At an aligned address an illegal ratio change is the one cause of refusal (R183, 20_memory.md R51). -/
theorem completesOrIllegal_hostWrite (s : State) {addr : Word} (v : Word) (ha : addr.toNat % 4 = 0) :
    CompletesOrIllegal (s.hostWrite addr v) := by
  simp only [State.hostWrite, if_pos ha]
  exact (completesOrIllegal_hostMovesPll ..).andNext fun _ =>
    (completesOrIllegal_hostMovesPll ..).andNext fun _ => completesOrIllegal_hostMovesPll ..

/-- Settles O56: a write that completed would have found the PLL BYPASSED or RECONFIGURING. -/
theorem ratioWriteWhileLockedIsRefused : Obligations.RatioWriteWhileLockedIsRefused := by
  intro s addr v p ha hlife hratio
  rcases completesOrIllegal_hostWrite s v ha with ⟨t, e⟩ | hrefused
  · obtain ⟨u, u', hpart, hbefore, -⟩ := part_of_hostWrite e p
    have hlegal := (hostMovesPll_life_same hpart).1 hratio
    rw [hbefore] at hlegal
    rcases hlife with hl | hl <;> simp [hl] at hlegal
  · exact hrefused

/-! The hardware's moves of lock -/

/-- What an acquired or a lost lock leaves: the PLL in `l`, the latch at `b` set, the lock bit at `v` (R180, R181). -/
def State.lockMoved (s : State) (p : PllId) (l : Life) (b : Nat) (v : Bool) : State :=
  ((s.setLife p l).setStatusBit b true).setStatusBit (s.cfg.lockedBit.get p) v

theorem hwMove_lockAcquired {s : State} {p : PllId} (h : s.life.get p = .locking) :
    s.hwMove (.lockAcquired p) = s.lockMoved p .locked (s.cfg.achBit.get p) true := if_pos h

theorem hwMove_lockLost {s : State} {p : PllId} (h : s.life.get p = .locked) :
    s.hwMove (.lockLost p) = s.lockMoved p .locking (s.cfg.lostBit.get p) false := if_pos h

theorem lockMoved_life (s : State) (p : PllId) (l : Life) (b : Nat) (v : Bool) :
    (s.lockMoved p l b v).life = s.life.set p l := rfl

/-- A bit of the status register after a move of lock: the lock bit, the latch, or as it was. -/
theorem getLsbD_readReg_lockMoved {s : State} (p : PllId) (l : Life) (b i : Nat) (v : Bool) :
    ((s.lockMoved p l b v).readReg s.cfg.statusAddr).getLsbD i =
      if i < 32 ∧ i = s.cfg.lockedBit.get p then v
      else if i < 32 ∧ i = b then true else (s.readReg s.cfg.statusAddr).getLsbD i := by
  have hread : (s.lockMoved p l b v).readReg s.cfg.statusAddr = (s.lockMoved p l b v).word s.cfg.statusAddr :=
    (s.lockMoved p l b v).readReg_status
  have hlock := getLsbD_status_setStatusBit ((s.setLife p l).setStatusBit b true) (s.cfg.lockedBit.get p) i v
  have hlatch := getLsbD_status_setStatusBit (s.setLife p l) b i true
  simp only [State.setStatusBit_cfg, State.setLife_cfg] at hlock hlatch
  rw [hread, State.readReg_status, State.lockMoved, hlock, hlatch]
  rfl

/-- A latch after a move of lock that sets the latch at `b` (10_state.md R42). -/
theorem latch_lockMoved {s : State} (hwf : s.cfg.wf = true) (p : PllId) (l : Life) (b : Nat) (v : Bool) {q : PllId}
    {i : Nat} (hi : i = s.cfg.achBit.get q ∨ i = s.cfg.lostBit.get q) :
    ((s.lockMoved p l b v).readReg s.cfg.statusAddr).getLsbD i =
      if i = b then true else (s.readReg s.cfg.statusAddr).getLsbD i := by
  have hlt : i < 32 := statusBit_lt hwf (.inr (latch_mem hi))
  rw [getLsbD_readReg_lockMoved, if_neg fun h => latch_ne_lockedBit hwf hi h.2]
  simp only [hlt, true_and]

/-- The lock bits after a move of lock: a latch is none. -/
theorem lck_lockMoved {s : State} (hwf : s.cfg.wf = true) (p : PllId) (l : Life) {b : Nat} (v : Bool)
    (hb : b = s.cfg.achBit.get p ∨ b = s.cfg.lostBit.get p) (q : PllId) :
    (s.lockMoved p l b v).lck q = if q = p then v else s.lck q := by
  have hlatch : ((s.setLife p l).setStatusBit b true).lck q = s.lck q := by
    rw [lck_eq_word, State.setStatusBit_cfg, getLsbD_status_setStatusBit,
      if_neg fun h => latch_ne_lockedBit hwf hb h.2.symm, lck_eq_word]
    rfl
  rw [← hlatch]
  exact lck_setStatusBit (s := (s.setLife p l).setStatusBit b true) hwf p q v

/-- No two latches are at one position (00_scope.md R9). -/
theorem achBit_ne_lostBit {c : Config} (hwf : c.wf = true) (p q : PllId) : c.achBit.get p ≠ c.lostBit.get q := by
  obtain ⟨-, hlatches, -⟩ := List.nodup_append.mp (nodup_statusBits hwf)
  obtain ⟨-, -, hapart⟩ := List.nodup_append.mp hlatches
  exact hapart _ (c.achBit.get_mem_toList p) _ (c.lostBit.get_mem_toList q)

/-- Settles O54, by the bits of the status register. -/
theorem lockMovesLatchTheirFlags : Obligations.LockMovesLatchTheirFlags := by
  refine fun s p hwf => ⟨fun h => ?_, fun h => ?_⟩
  · rw [hwMove_lockAcquired h]
    refine ⟨PerPll.get_set_same _ _ _, ?_, ?_⟩
    · rw [latch_lockMoved hwf _ _ _ _ (.inl rfl), if_pos rfl]
    · rw [lck_lockMoved hwf _ _ _ (.inl rfl), if_pos rfl]
  · rw [hwMove_lockLost h]
    refine ⟨PerPll.get_set_same _ _ _, ?_, ?_, ?_⟩
    · rw [latch_lockMoved hwf _ _ _ _ (.inr rfl), if_pos rfl]
    · rw [lck_lockMoved hwf _ _ _ (.inr rfl), if_pos rfl]
    · rw [latch_lockMoved hwf _ _ _ _ (.inl rfl), if_neg (achBit_ne_lostBit hwf p p)]

end Sys2Proof.Machine
end

section
/-!
SUPPORT. The registers and the lifecycle agree through every step, and the busy bit stays within its envelope
(42_settle_and_lifecycle.md R184, R185, R187; O50). What carries the proof through an operation: the hardware's lifecycle
moves reach no plain register, and the block's writes no plain bit but a gate bit.
-/

namespace Sys2Proof.Machine

/-! Agreement is an equality of observations -/

/-- What the host can tell of a lifecycle state (R185). -/
def lifeObserved : Life → Observed
  | .bypassed => .bypassed
  | .reconfiguring => .bypassed
  | .locking => .locking
  | .locked => .locked

/-- The registers agree with the lifecycle of a PLL where they show what the host is to observe: R185's truth table. -/
theorem lifeAgrees_iff {s : State} {p : PllId} : LifeAgrees s p ↔ s.obs p = lifeObserved (s.life.get p) := by
  rw [LifeAgrees, State.obs]
  cases s.life.get p <;> cases s.byp p <;> cases s.lck p <;> simp [classify, lifeObserved]

/-- In agreement the lifecycle tells whether the PLL is bypassed. -/
theorem LifeAgrees.byp_eq_true {s : State} {p : PllId} (h : LifeAgrees s p)
    (hl : s.life.get p = .bypassed ∨ s.life.get p = .reconfiguring) : s.byp p = true := h.1.mp hl

theorem LifeAgrees.byp_eq_false {s : State} {p : PllId} (h : LifeAgrees s p)
    (hl : s.life.get p = .locking ∨ s.life.get p = .locked) : s.byp p = false := by
  obtain ⟨-, hlocked, hlocking⟩ := h
  rcases hl with hl | hl
  · exact (hlocking.mp hl).1
  · exact (hlocked.mp hl).1

theorem LifeAgrees.congr {s t : State} {p : PllId} (h : LifeAgrees s p) (hl : t.life.get p = s.life.get p)
    (hb : t.byp p = s.byp p) (hk : t.lck p = s.lck p) : LifeAgrees t p := by
  simpa only [LifeAgrees, hl, hb, hk] using h

/-! The plain bits that no operation changes -/

/-- Bit `b` of the register at `x` is a node's gate bit (10_state.md R32). -/
def IsGateBit (c : Config) (x : Word) (b : Nat) : Prop := ∃ n g, gateOf c n = some g ∧ x = g.addr ∧ b = g.bit

/-- A node's gate is neither the safe-mode bit nor a bypass-select bit. -/
theorem gate_apart {c : Config} (h : gatesApart c = true) {n : Nat} {g : Gate} (hg : gateOf c n = some g) :
    ¬ (g.addr = c.ctrlAddr ∧ g.bit = c.safemodeBit) ∧ ¬ (g.addr = c.bypassAddr ∧ g.bit ∈ c.bypassBit.toList) := by
  unfold gateOf at hg
  split at hg
  · rename_i mux menu div gate hn
    have hnode := List.all_eq_true.mp h _ (List.mem_of_getElem? hn)
    simpa [nodeGate, hg, imp_iff_not_or] using hnode
  · simp at hg

theorem not_isGateBit_safemode {c : Config} (h : gatesApart c = true) : ¬ IsGateBit c c.ctrlAddr c.safemodeBit := by
  rintro ⟨n, g, hg, haddr, hbit⟩
  exact (gate_apart h hg).1 ⟨haddr.symm, hbit.symm⟩

theorem not_isGateBit_bypass {c : Config} (h : gatesApart c = true) (p : PllId) :
    ¬ IsGateBit c c.bypassAddr (c.bypassBit.get p) := by
  rintro ⟨n, g, hg, haddr, hbit⟩
  exact (gate_apart h hg).2 ⟨haddr.symm, hbit ▸ c.bypassBit.get_mem_toList p⟩

/-- Every bit of every plain register reads the same, gate bits apart. -/
def PlainKept (s t : State) : Prop :=
  ∀ x b, isStatusReg s.cfg x = false → ¬ IsGateBit s.cfg x b → (t.readReg x).getLsbD b = (s.readReg x).getLsbD b

theorem PlainKept.refl (s : State) : PlainKept s s := fun _ _ _ _ => rfl

theorem PlainKept.trans {s t u : State} (hc : t.cfg = s.cfg) (h : PlainKept s t) (h' : PlainKept t u) :
    PlainKept s u := fun x b hx hb => (h' x b (hc ▸ hx) (hc ▸ hb)).trans (h x b hx hb)

/-- Bypass is made of plain bits that are no gate bits. -/
theorem byp_of_plainKept {s t : State} (hone : oneClass s.cfg = true) (hgates : gatesApart s.cfg = true)
    (hc : t.cfg = s.cfg) (h : PlainKept s t) (p : PllId) : t.byp p = s.byp p := by
  have hsafe : t.safeMode = s.safeMode := by
    rw [State.safeMode, hc, h _ _ (not_isStatusReg_of_oneClass hone (by simp [plainAddresses]))
      (not_isGateBit_safemode hgates), State.safeMode]
  have hselect : t.bypassSelect p = s.bypassSelect p := by
    rw [State.bypassSelect, hc, h _ _ (not_isStatusReg_of_oneClass hone (by simp [plainAddresses]))
      (not_isGateBit_bypass hgates p), State.bypassSelect]
  rw [State.byp, hsafe, hselect, State.byp]

/-! What the updates of single bits leave -/

/-- A status bit is none of a plain register. -/
theorem readReg_setStatusBit_plain (s : State) (b : Nat) (v : Bool) {x : Word} (hx : isStatusReg s.cfg x = false) :
    (s.setStatusBit b v).readReg x = s.readReg x := by
  have hne : x ≠ s.cfg.statusAddr := by simp_all [isStatusReg]
  rw [State.readReg_plain _ (by simpa using hx), State.readReg_plain s hx, State.word_setStatusBit, if_neg hne]

theorem plainKept_setStatusBit (s : State) (b : Nat) (v : Bool) : PlainKept s (s.setStatusBit b v) :=
  fun _ _ hx _ => by rw [readReg_setStatusBit_plain s b v hx]

theorem plainKept_lockMoved (s : State) (p : PllId) (l : Life) (b : Nat) (v : Bool) :
    PlainKept s (s.lockMoved p l b v) :=
  PlainKept.trans (t := (s.setLife p l).setStatusBit b true) rfl (plainKept_setStatusBit (s.setLife p l) b true)
    (plainKept_setStatusBit ((s.setLife p l).setStatusBit b true) _ v)

/-- The busy bit is none of a plain register. -/
theorem plainKept_setBusy {s : State} (hone : oneClass s.cfg = true) (v : Bool) : PlainKept s (s.setBusy v) := by
  intro x b hx _
  have hne : x ≠ s.cfg.statAddr := by simp_all [isStatusReg]
  rw [readReg_setBusy hone, if_neg hne]

theorem lck_setBusy {s : State} (hone : oneClass s.cfg = true) (v : Bool) (p : PllId) :
    (s.setBusy v).lck p = s.lck p := by
  rw [State.lck, State.setBusy_cfg, readReg_setBusy hone, if_neg (statAddr_ne_statusAddr hone).symm, State.lck]

/-- No status bit is the busy bit. -/
theorem busy_setStatusBit {s : State} (hone : oneClass s.cfg = true) (b : Nat) (v : Bool) :
    (s.setStatusBit b v).busy = s.busy := by
  rw [busy_eq_word (by simpa using hone), busy_eq_word hone, State.setStatusBit_cfg, State.word_setStatusBit,
    if_neg (statAddr_ne_statusAddr hone)]

theorem busy_lockMoved {s : State} (hone : oneClass s.cfg = true) (p : PllId) (l : Life) (b : Nat) (v : Bool) :
    (s.lockMoved p l b v).busy = s.busy :=
  (busy_setStatusBit (s := (s.setLife p l).setStatusBit b true) hone _ v).trans
    (busy_setStatusBit (s := s.setLife p l) hone b true)

/-- A write that neither asserts nor lifts bypass leaves it. -/
theorem byp_eq_of_neither {s w : State} {p : PllId} (ha : bypassAsserted s w p = false)
    (hl : bypassLifted s w p = false) : w.byp p = s.byp p := by
  cases hs : s.byp p with
  | true => simpa [bypassLifted, hs] using hl
  | false =>
    obtain ⟨hsafe, hselect⟩ : s.safeMode = false ∧ s.bypassSelect p = false := by simpa [State.byp] using hs
    simpa [bypassAsserted, State.byp, hsafe, hselect] using ha

/-! The hardware's lifecycle moves -/

/-- A lifecycle move does nothing, or moves the lock of a PLL that is not bypassed to the state its new lock bit shows,
or gives a bypassed PLL's lock bit a value, or moves the busy bit, which rises only after a write (R180 to R184). -/
theorem State.hwMove_cases (s : State) {m : HwMove} (hm : isLifecycleMove m = true) :
    s.hwMove m = s ∨
      (∃ p l b v, (s.life.get p = .locking ∨ s.life.get p = .locked) ∧
        (b = s.cfg.achBit.get p ∨ b = s.cfg.lostBit.get p) ∧ lifeObserved l = classify false v ∧
        s.hwMove m = s.lockMoved p l b v) ∨
      (∃ p v, (s.life.get p = .bypassed ∨ s.life.get p = .reconfiguring) ∧
        s.hwMove m = s.setStatusBit (s.cfg.lockedBit.get p) v) ∨
      ∃ v, s.hwMove m = { s.setBusy v with disturbed := v } := by
  cases m with
  | lockAcquired p =>
    by_cases h : s.life.get p = .locking
    · exact .inr (.inl ⟨p, _, _, _, .inl h, .inl rfl, rfl, hwMove_lockAcquired h⟩)
    · exact .inl (if_neg h)
  | lockLost p =>
    by_cases h : s.life.get p = .locked
    · exact .inr (.inl ⟨p, _, _, _, .inr h, .inr rfl, rfl, hwMove_lockLost h⟩)
    · exact .inl (if_neg h)
  | lockBitWanders p v =>
    by_cases h : s.life.get p = .bypassed ∨ s.life.get p = .reconfiguring
    · exact .inr (.inr (.inl ⟨p, v, h, if_pos h⟩))
    · exact .inl (if_neg h)
  | busyRises =>
    cases h : s.disturbed with
    | false => exact .inl (hwMove_busyRises_of_undisturbed h)
    | true =>
      refine .inr (.inr (.inr ⟨true, (hwMove_busyRises h).trans ?_⟩))
      rw [← h]
      rfl
  | busyFalls => exact .inr (.inr (.inr ⟨false, rfl⟩))
  | drive a w => cases hm

section
variable {s : State} (hwf : s.cfg.wf = true) (hone : oneClass s.cfg = true) {m : HwMove}
  (hm : isLifecycleMove m = true)
include hone hm

theorem plainKept_hwMove : PlainKept s (s.hwMove m) := by
  rcases s.hwMove_cases hm with he | ⟨p, l, b, v, -, -, -, he⟩ | ⟨p, v, -, he⟩ | ⟨v, he⟩ <;> rw [he]
  · exact .refl s
  · exact plainKept_lockMoved s p l b v
  · exact plainKept_setStatusBit s _ v
  · exact plainKept_setBusy hone v

include hwf

/-- A lifecycle move keeps every PLL's registers and lifecycle in agreement (R187). -/
theorem lifeAgrees_hwMove (hgates : gatesApart s.cfg = true) (h : ∀ p, LifeAgrees s p) (q : PllId) :
    LifeAgrees (s.hwMove m) q := by
  have hbyp : (s.hwMove m).byp q = s.byp q :=
    byp_of_plainKept hone hgates (s.hwMove_cfg m) (plainKept_hwMove hone hm) q
  rcases s.hwMove_cases hm with he | ⟨p, l, b, v, hl, hb, hv, he⟩ | ⟨p, v, hl, he⟩ | ⟨v, he⟩ <;> rw [he] at hbyp ⊢
  · exact h q
  · have hlck := lck_lockMoved hwf p l v hb q
    by_cases hq : q = p
    · subst hq
      rw [if_pos rfl] at hlck
      rw [lifeAgrees_iff, State.obs, hbyp, (h q).byp_eq_false hl, hlck, lockMoved_life, PerPll.get_set_same, hv]
    · rw [if_neg hq] at hlck
      exact (h q).congr (PerPll.get_set_other _ _ hq) hbyp hlck
  · by_cases hq : q = p
    · subst hq
      rw [lifeAgrees_iff, State.obs, hbyp, (h q).byp_eq_true hl]
      rcases hl with hl | hl <;> rw [State.setStatusBit_life, hl] <;> rfl
    · have hlck := lck_setStatusBit hwf p q v
      rw [if_neg hq] at hlck
      exact (h q).congr rfl hbyp hlck
  · exact (h q).congr rfl hbyp (lck_setBusy hone v q)

/-- A lifecycle move keeps the busy bit within its envelope (R184). -/
theorem busyWithinEnvelope_hwMove (h : BusyWithinEnvelope s) : BusyWithinEnvelope (s.hwMove m) := by
  rcases s.hwMove_cases hm with he | ⟨p, l, b, v, -, -, -, he⟩ | ⟨p, v, -, he⟩ | ⟨v, he⟩ <;> rw [he]
  · exact h
  · intro hb
    rw [busy_lockMoved hone] at hb
    exact h hb
  · intro hb
    rw [busy_setStatusBit hone] at hb
    exact h hb
  · intro hb
    exact (busy_setBusy hwf hone v).symm.trans hb

end

/-! The hardware before a transfer -/

/-- Every move scheduled is one of the lifecycle's. -/
def LifecycleSchedule (s : State) : Prop := ∀ ms ∈ s.hw, ∀ m ∈ ms, isLifecycleMove m = true

theorem LifecycleSchedule.pollHw {s : State} (h : LifecycleSchedule s) : LifecycleSchedule s.pollHw := fun ms hms =>
  h ms (List.mem_of_mem_tail (s.pollHw_hw ▸ hms))

/-- What lifecycle moves keep, and the schedule does not matter to, is kept by the moves before a transfer. -/
theorem pollHw_keeps {P : State → Prop} (hmove : ∀ s m, isLifecycleMove m = true → P s → P (s.hwMove m))
    (hsched : ∀ (s : State) l, P s → P { s with hw := l }) {s : State} (hs : LifecycleSchedule s) (h : P s) :
    P s.pollHw := by
  have moves (ms : List HwMove) (u : State) (hms : ∀ m ∈ ms, isLifecycleMove m = true) (hu : P u) :
      P (u.hwMoves ms) := by
    induction ms generalizing u with
    | nil => exact hu
    | cons m ms ih =>
      exact ih (u.hwMove m) (fun m' hm' => hms m' (List.mem_cons_of_mem _ hm'))
        (hmove u m (hms m List.mem_cons_self) hu)
  cases hhw : s.hw with
  | nil => rwa [State.pollHw_of_nil hhw]
  | cons ms rest =>
    have he : s.pollHw = ({ s with hw := rest } : State).hwMoves ms := by simp only [State.pollHw, hhw]
    rw [he]
    exact moves ms _ (hs ms (hhw ▸ List.mem_cons_self)) (hsched s rest h)

/-! The busy bit through an operation -/

/-- The basic updates of every operation keep the busy bit within its envelope: it may be 1 after a write. -/
theorem stable_busyWithinEnvelope {c : Config} (hwf : c.wf = true) (hone : oneClass c = true) (i : Instr) :
    Stable c i fun u => LifecycleSchedule u ∧ u.cfg = c ∧ BusyWithinEnvelope u where
  cfg _ h := h.2.1
  poll s h := by
    refine ⟨h.1.pollHw, pollHw_keeps (P := fun u => u.cfg = c ∧ BusyWithinEnvelope u) ?_ (fun _ _ h => h) h.1 h.2⟩
    rintro u m hm ⟨rfl, hu⟩
    exact ⟨u.hwMove_cfg m, busyWithinEnvelope_hwMove hwf hone hm hu⟩
  countdown _ _ _ h := h
  read _ _ _ h := h
  write s a v _ _ h := by
    refine ⟨?_, ?_, fun _ => s.writeReg_disturbed a v⟩
    · simpa [LifecycleSchedule] using h.1
    · simpa using h.2.1
  rmw _ _ h := h
  acc _ _ h := h
  sp _ _ h := h
  stk _ _ h := h
  iter _ _ h := h
  osc _ _ _ _ _ h := h

theorem exec_keeps_busyWithinEnvelope {i : Instr} {s t : State} (hwf : s.cfg.wf = true) (hone : oneClass s.cfg = true)
    (hs : LifecycleSchedule s) (h : BusyWithinEnvelope s) (e : exec i s = .next t) : BusyWithinEnvelope t := by
  obtain ⟨u, ⟨-, -, hu⟩, ⟨-, v, rfl⟩ | ⟨-, k, rfl⟩ | ⟨-, rfl⟩⟩ :=
    (stable_busyWithinEnvelope hwf hone i).exec ⟨hs, rfl, h⟩ e
  · exact hu
  · exact hu
  · exact hu

/-! The lifecycle through an operation -/

/-- In an operation that began in `s`: lifecycle moves alone are to come, registers and lifecycle agree, and no plain
bit but a gate bit has changed since. -/
def LifeKept (s u : State) : Prop :=
  LifecycleSchedule u ∧ u.cfg = s.cfg ∧ (∀ p, LifeAgrees u p) ∧ PlainKept s u

section
variable {s : State} (hwf : s.cfg.wf = true) (hone : oneClass s.cfg = true) (hgates : gatesApart s.cfg = true)
include hwf hone hgates

/-- The basic updates of an operation that does not write. -/
theorem stable_lifeKept {i : Instr} (hi : ¬ writes i) : Stable s.cfg i (LifeKept s) where
  cfg _ h := h.2.1
  poll u h := by
    obtain ⟨hsched, hkept⟩ := h
    refine ⟨hsched.pollHw, pollHw_keeps (P := fun u => u.cfg = s.cfg ∧ (∀ p, LifeAgrees u p) ∧ PlainKept s u) ?_
      (fun _ _ h => h) hsched hkept⟩
    rintro u m hm ⟨hc, hagrees, hplain⟩
    rw [← hc] at hwf hone hgates
    exact ⟨(u.hwMove_cfg m).trans hc, lifeAgrees_hwMove hwf hone hm hgates hagrees,
      hplain.trans hc (plainKept_hwMove hone hm)⟩
  countdown _ _ _ h := h
  read _ _ _ h := h
  write _ _ _ hw := absurd hw hi
  rmw _ _ h := h
  acc _ _ h := h
  sp _ _ h := h
  stk _ _ h := h
  iter _ _ h := h
  osc _ _ _ _ _ h := h

/-- Before any transfer, of SETTLE_WAIT as of every other operation. -/
theorem transferPoint_lifeKept {u : State} (h : LifeKept s u) : u.transferPoint.Sat (LifeKept s) fun _ => True :=
  (stable_lifeKept hwf hone hgates (i := .settleWait) id).transferPoint h

/-- A write that leaves the plain bits keeps the agreement: it reaches no lock bit. -/
theorem LifeKept.writeReg {u : State} (h : LifeKept s u) {a v : Word} (hplain : PlainKept s (u.writeReg a v)) :
    LifeKept s (u.writeReg a v) := by
  obtain ⟨hsched, hc, hagrees, hbefore⟩ := h
  have hc' : (u.writeReg a v).cfg = s.cfg := (u.writeReg_cfg a v).trans hc
  refine ⟨by simpa [LifecycleSchedule] using hsched, hc', fun p => (hagrees p).congr ?_ ?_ ?_, hplain⟩
  · rw [State.writeReg_life]
  · rw [byp_of_plainKept hone hgates hc' hplain, byp_of_plainKept hone hgates hc hbefore]
  · exact lck_writeReg (hc ▸ hwf) a v p

/-- STAT_CLEAR's write reaches no plain register (41_pll_monitor.md R145). -/
theorem write32_statclr_lifeKept (v : Word) (h : LifeKept s s) :
    (write32 s.cfg.statclrAddr v s).Sat (LifeKept s) fun _ => True := by
  refine (transferPoint_lifeKept hwf hone hgates h).andThen fun _ u hu _ => ⟨?_, trivial⟩
  have ⟨_, hc, _, hplain⟩ := hu
  refine hu.writeReg hwf hone hgates (hplain.trans hc fun x b hx _ => ?_)
  have hne : x ≠ u.cfg.statusAddr ∧ x ≠ u.cfg.statclrAddr := by simp_all [isStatusReg]
  rw [← hc, readReg_writeReg_statclr v hne.1 hne.2]

/-- A gate operation's read-modify-write changes the gate bit alone, whatever lifecycle moves come between its halves
(20_memory.md R55 to R57). -/
theorem readModifyWrite_lifeKept {n : Nat} {g : Gate} (hg : gateOf s.cfg n = some g) {f : Word → Word}
    (hf : ∀ w b, b ≠ g.bit → (f w).getLsbD b = w.getLsbD b) (h : LifeKept s s) :
    ((read32 g.addr s).andThen fun w s => write32 g.addr (f w) { s with rmw := w }).Sat (LifeKept s)
      fun _ => True := by
  have hstatus : isStatusReg s.cfg g.addr = false :=
    not_isStatusReg_of_oneClass hone (gateAddr_mem_plainAddresses hg)
  have hread : (read32 g.addr s).Sat (LifeKept s) fun w =>
      ∀ b, ¬ IsGateBit s.cfg g.addr b → w.getLsbD b = (s.readReg g.addr).getLsbD b :=
    (transferPoint_lifeKept hwf hone hgates h).andThen fun _ u hu _ => by
      have ⟨_, _, _, hplain⟩ := hu
      exact ⟨hu, fun b hb => hplain g.addr b hstatus hb⟩
  refine hread.andThen fun w u hu hw => ?_
  refine (transferPoint_lifeKept hwf hone hgates (u := { u with rmw := w }) hu).andThen fun _ u hu _ => ⟨?_, trivial⟩
  refine hu.writeReg hwf hone hgates fun x b hx hb => ?_
  obtain ⟨-, hc, -, hplain⟩ := hu
  rw [State.readReg_writeReg_plain u _ x (hc ▸ hstatus)]
  by_cases hxa : x = g.addr
  · subst hxa
    have hbit : b ≠ g.bit := fun hbit => hb ⟨n, g, hg, rfl, hbit⟩
    rw [if_pos rfl, hf w b hbit, hw b hb]
  · rw [if_neg hxa, hplain x b hx hb]

/-- Every operation keeps registers and lifecycle in agreement, reset or not. -/
theorem exec_keeps_lifeAgrees {i : Instr} {t : State} (hs : LifecycleSchedule s) (h : ∀ p, LifeAgrees s p)
    (e : exec i s = .next t) : ∀ p, LifeAgrees t p := by
  have hstart : LifeKept s s := ⟨hs, rfl, h, .refl s⟩
  have answer {r : Res Unit} (hr : r.Sat (LifeKept s) fun _ => True) :
      (r.andThen fun _ s => .ok 0#32 s).Sat (LifeKept s) fun _ => True := hr.andThen fun _ _ hu _ => ⟨hu, trivial⟩
  have hended : Stable.Ended (LifeKept s) t := by
    cases i with
    | statClear a =>
      refine Stable.finish ?_ e
      split
      · exact answer (write32_statclr_lifeKept hwf hone hgates a hstart)
      · exact hstart
    | clkEnable a =>
      refine Stable.finish ?_ e
      split
      · exact hstart
      · rename_i g hg
        exact answer (readModifyWrite_lifeKept hwf hone hgates (gateOperand_ok.mp hg).2
          (f := (· ||| bitMask g.bit)) (fun w b hb => (getLsbD_or_bitMask w g.bit b).trans (by simp [hb])) hstart)
    | clkDisable a =>
      refine Stable.finish ?_ e
      split
      · exact hstart
      · rename_i g hg
        exact answer (readModifyWrite_lifeKept hwf hone hgates (gateOperand_ok.mp hg).2
          (f := (· &&& ~~~(bitMask g.bit))) (fun w b hb => (getLsbD_and_not_bitMask w g.bit b).trans (by simp [hb]))
          hstart)
    | _ => exact (stable_lifeKept hwf hone hgates id).exec hstart e
  obtain ⟨u, ⟨-, -, hu, -⟩, ⟨-, v, rfl⟩ | ⟨-, k, rfl⟩ | ⟨-, rfl⟩⟩ := hended
  · exact hu
  · exact hu
  · exact hu

/-! A direct write of the host -/

/-- No PLL's part of a direct write reaches a plain register. -/
theorem byp_of_hostWrite {t : State} {addr v : Word} (e : s.hostWrite addr v = .next t) (p : PllId) :
    t.byp p = (s.writeReg addr v).byp p := by
  have hmoved := hostMoved_of_hostWrite hwf e
  refine byp_of_plainKept (by simpa using hone) (by simpa using hgates) hmoved.cfg (fun x b hx _ => ?_) p
  have hne : x ≠ (s.writeReg addr v).cfg.statusAddr := by simp_all [isStatusReg]
  rw [State.readReg_plain t (hmoved.cfg ▸ hx), State.readReg_plain _ hx, hmoved.word x hne]

/-- A direct write that completes keeps every PLL's registers and lifecycle in agreement: bypass asserted, bypass lifted,
or bypass as it was (R177 to R179, R182). -/
theorem hostWrite_keeps_lifeAgrees {t : State} {addr v : Word} (h : ∀ p, LifeAgrees s p)
    (e : s.hostWrite addr v = .next t) (p : PllId) : LifeAgrees t p := by
  have hbyp := byp_of_hostWrite hwf hone hgates e p
  have hlife := life_of_hostWrite e p
  have hmoved := hostMoved_of_hostWrite hwf e
  cases hasserted : bypassAsserted s (s.writeReg addr v) p with
  | true =>
    have hw : (s.writeReg addr v).byp p = true := by
      rcases bypassAsserted_iff.mp hasserted with ⟨-, hw⟩ | ⟨-, hw⟩ <;> simp [State.byp, hw]
    have hl : t.life.get p = .bypassed := by simp [hlife, lifeAfterWrite, hasserted]
    rw [lifeAgrees_iff, State.obs, hbyp, hw, hl]
    rfl
  | false =>
    cases hlifted : bypassLifted s (s.writeReg addr v) p with
    | true =>
      obtain ⟨-, hw⟩ := bypassLifted_iff.mp hlifted
      have hl : t.life.get p = .locking := by simp [hlife, lifeAfterWrite, hasserted, hlifted]
      rw [lifeAgrees_iff, State.obs, hbyp, hw, hmoved.lockLifted p (mem_pllIds p) hlifted, hl]
      rfl
    | false =>
      have hkept : (s.writeReg addr v).byp p = s.byp p := byp_eq_of_neither hasserted hlifted
      have hlck : t.lck p = s.lck p :=
        (hmoved.lockKept p fun _ => ⟨hasserted, hlifted⟩).trans (lck_writeReg hwf addr v p)
      by_cases hratio : s.ratio p = (s.writeReg addr v).ratio p
      · have hl : t.life.get p = s.life.get p := by simp [hlife, lifeAfterWrite, hasserted, hlifted, hratio]
        exact (h p).congr hl (hbyp.trans hkept) hlck
      · have hl : t.life.get p = .reconfiguring := by simp [hlife, lifeAfterWrite, hasserted, hlifted, hratio]
        obtain ⟨u, u', hpart, hbefore, -⟩ := part_of_hostWrite e p
        have hlegal := (hostMovesPll_life_same hpart).1 hratio
        rw [hbefore] at hlegal
        rw [lifeAgrees_iff, State.obs, hbyp, hkept, (h p).byp_eq_true hlegal, hl]
        rfl

end

/-- A direct write that completes is one from which on the busy bit may rise (R184). -/
theorem disturbed_of_hostWrite {s t : State} {addr v : Word} (hwf : s.cfg.wf = true)
    (e : s.hostWrite addr v = .next t) : t.disturbed = true := by
  rw [(hostMoved_of_hostWrite hwf e).frame]
  exact s.writeReg_disturbed addr v

/-! Every step -/

/-- From `s` to `t` the registers' agreement with the lifecycle was kept, and the busy bit's envelope (R184, R185). -/
def KeepsLifecycle (s t : State) : Prop :=
  ((∀ p, LifeAgrees s p) → ∀ p, LifeAgrees t p) ∧ (BusyWithinEnvelope s → BusyWithinEnvelope t)

section
variable {s t : State} (hwf : s.cfg.wf = true) (hone : oneClass s.cfg = true) (hgates : gatesApart s.cfg = true)
include hwf hone hgates

theorem exec_keepsLifecycle {i : Instr} (hs : LifecycleSchedule s) (e : exec i s = .next t) : KeepsLifecycle s t :=
  ⟨fun h => exec_keeps_lifeAgrees hwf hone hgates hs h e, fun h => exec_keeps_busyWithinEnvelope hwf hone hs h e⟩

/-- Every input that the block takes, where the hardware makes lifecycle moves alone. -/
theorem takeInput_keepsLifecycle {i : Input} (hs : LifecycleSchedule s)
    (hi : ∀ m, i = .hardware m → isLifecycleMove m = true) (e : s.takeInput i = .next t) : KeepsLifecycle s t := by
  cases i with
  | command cw resetAfter => exact exec_keepsLifecycle (s := s.accept cw resetAfter) hwf hone hgates hs e
  | hostWrite addr w =>
    exact ⟨fun h => hostWrite_keeps_lifeAgrees hwf hone hgates h e, fun _ _ => disturbed_of_hostWrite hwf e⟩
  | hostRead addr =>
    simp only [State.takeInput, State.hostRead] at e
    split at e <;> cases e
    exact ⟨id, id⟩
  | hardware m =>
    cases e
    have hm := hi m rfl
    exact ⟨lifeAgrees_hwMove hwf hone hm hgates, busyWithinEnvelope_hwMove hwf hone hm⟩
  | reset => cases e; exact ⟨id, id⟩

end

/-- Settles O50, by what a step can be: an operation, nothing, or an input taken. -/
theorem stepKeepsTheLifecycleInvariant : Obligations.StepKeepsTheLifecycleInvariant := by
  intro s t hone hgates hs hinput e
  obtain ⟨hwf, ⟨-, e⟩ | ⟨-, -, rfl⟩ | ⟨i, rest, -, hi, e⟩⟩ := step_next e
  · exact exec_keepsLifecycle hwf hone hgates hs e
  · exact ⟨id, id⟩
  · refine takeInput_keepsLifecycle (s := { s with inputs := rest }) hwf hone hgates hs (fun m hm => ?_) e
    exact hinput m (by rw [hi, hm, List.head?_cons])

end Sys2Proof.Machine
end

section
/-!
SUPPORT. Failures and their kinds (60_exceptions.md R201 to R210): what a failing operation leaves (O29, O30), and which
operation fails with which code (O31).
-/

namespace Sys2Proof.Machine

/-- Settles O29: such an operation is the failure and no more. -/
theorem commandWordFailuresAreImmediate : Obligations.CommandWordFailuresAreImmediate := fun _ s k hr hk =>
  ⟨s.raiseFailure k, exec_of_commandFailure hr hk, raiseFailure_frame s k⟩

/-! Past the check of the command word -/

/-- What a walk can come to, with no reset coming: it is stuck, it has a frequency, or it failed in a multiplexer step
or in a PLL stage (R202 (e), R203). -/
inductive WalkEnd (c : Config) (osc : List Oscillator) : Walk → Prop where
  | stuck (f : Fault) : WalkEnd c osc (.stuck f)
  | ok (v : Word) {u : State} (hu : Ready c osc u) : WalkEnd c osc (.done (.ok v u))
  | unknownMultiplexer {u : State} (hu : Ready c osc u) : WalkEnd c osc (.done (.failed .badArgument u))
  | overflow {u : State} (hu : Ready c osc u) : WalkEnd c osc (.done (.failed .arithmeticOverflow u))

theorem walkEnd_resolveNode {c : Config} {osc : List Oscillator} (fuel n : Nat) {s : State} (hs : Ready c osc s) :
    WalkEnd c osc (resolveNode fuel n s) := by
  induction fuel generalizing n s with
  | zero => exact .stuck _
  | succ fuel ih =>
    cases hn : s.cfg.topo[n]? with
    | none => exact resolveNode_noSuchNode hn ▸ .stuck _
    | some node =>
      cases hmux : nodeMux node with
      | none =>
        obtain ⟨i, rfl⟩ := nodeMux_eq_none.mp hmux
        cases ho : s.osc[i]? with
        | none => exact resolveNode_noSuchOscillator hn ho ▸ .stuck _
        | some o => exact resolveNode_osc hn ho ▸ .ok o.freq ((quiet_visit c osc n).ready s hs)
      | some mux =>
        cases hsel : selected mux node.menu s with
        | none =>
          rw [resolveNode_unknown hs.resetIn hn hmux hsel]
          exact .unknownMultiplexer (((quiet_visit c osc n).ready s hs).readAt mux.addr)
        | some m =>
          rw [resolveNode_known hs.resetIn hn hmux hsel]
          have hbelow := ih m (hs.below n mux.addr)
          generalize resolveNode fuel m (s.below n mux.addr) = below at hbelow
          cases hbelow with
          | stuck f => exact .stuck f
          | unknownMultiplexer hu => exact .unknownMultiplexer hu
          | overflow hu => exact .overflow hu
          | @ok fp u hu =>
            obtain ⟨w, hw, -, -, ⟨v, e, -⟩ | ⟨-, e⟩⟩ := nodeStage_cases ((quiet_ascend c osc).ready u hu) node fp <;>
              rw [Walk.thenStage_done, Res.andThen_ok, e]
            · exact .ok v hw
            · exact .overflow hw

/-- RESOLVE of a node answers a frequency, or one of the two failures of a walk. -/
theorem status_of_resolve {s t : State} {a : Word} (hr : s.resetIn = none) (ha : a.toNat < s.cfg.nNodes)
    (e : exec (.resolve a) s = .next t) :
    t.status = 0#3 ∨ t.status = Failure.code .badArgument ∨ t.status = Failure.code .arithmeticOverflow := by
  have hs : Ready s.cfg s.osc s := ⟨rfl, rfl, hr⟩
  have hwalk := walkEnd_resolveNode (s.cfg.maxDepth + 1) a.toNat hs.atRequest
  rw [exec_resolve ha] at e
  generalize resolveNode (s.cfg.maxDepth + 1) a.toNat s.atRequest = walk at e hwalk
  cases hwalk with
  | stuck f => cases e
  | ok v hu =>
    cases e
    rw [Res.conclude_ok v hu.resetIn]
    exact .inl rfl
  | unknownMultiplexer hu =>
    cases e
    rw [Res.conclude_failed _ hu.resetIn]
    exact .inr (.inl rfl)
  | overflow hu =>
    cases e
    rw [Res.conclude_failed _ hu.resetIn]
    exact .inr (.inr rfl)

/-- SETTLE_WAIT answers OK or a timeout, its bound 0 included. -/
theorem status_of_settleWait {s t : State} (hr : s.resetIn = none) (e : exec .settleWait s = .next t) :
    t.status = 0#3 ∨ t.status = Failure.code .timeout := by
  obtain ⟨u, -, hend, hu, -⟩ := settleLoop_bounded s.cfg.settleBound (s := { s with iter := 0#32 }) hr
  rw [exec_settleWait] at e
  rcases hend with hend | hend <;> rw [hend] at e
  · rw [Res.conclude_ok _ hu] at e
    cases e
    exact .inl rfl
  · rw [Res.conclude_failed _ hu] at e
    cases e
    exact .inr rfl

/-- A PLL index in range is the operand of a PLL (30_encoding.md R87). -/
theorem eq_pllOperand {a : Word} {p : PllId} (h : pllIndex? a = some p) : a = pllOperand p := by
  unfold pllIndex? at h
  apply BitVec.eq_of_toNat_eq
  split at h <;> cases h <;> assumption

/-- Past the check of the command word every other operation answers OK: no transfer fails (20_memory.md R50). -/
theorem status_of_passed {i : Instr} {s t : State} (hr : s.resetIn = none) (hk : commandFailure s.cfg i = none)
    (hresolve : ∀ a, i ≠ .resolve a) (hsettle : i ≠ .settleWait) (e : exec i s = .next t) : t.status = 0#3 := by
  cases i with
  | resolve a => exact absurd rfl (hresolve a)
  | settleWait => exact absurd rfl hsettle
  | oscSet a b =>
    simp only [commandFailure] at hk
    split at hk
    next => cases hk
    next n hn =>
      rw [exec_oscSet hr hn] at e
      cases e
      rfl
  | pllLocked a =>
    simp only [commandFailure] at hk
    split at hk
    next => cases hk
    next p hp =>
      rw [eq_pllOperand hp, exec_pllLocked hr p] at e
      cases e
      rfl
  | pllBypassed a =>
    simp only [commandFailure] at hk
    split at hk
    next => cases hk
    next p hp =>
      rw [eq_pllOperand hp, exec_pllBypassed hr p] at e
      cases e
      rfl
  | statClear a =>
    rw [exec_statClear hr (by simpa [commandFailure] using hk)] at e
    cases e
    rfl
  | clkEnable a =>
    obtain ⟨g, hg⟩ := gateOperand_of_commandFailure (.inl rfl) hk
    obtain ⟨u, hu, hwrote⟩ := wroteBack_clkEnable hr hg
    cases hu.symm.trans e
    exact hwrote.answered.1
  | clkDisable a =>
    obtain ⟨g, hg⟩ := gateOperand_of_commandFailure (.inr rfl) hk
    obtain ⟨u, hu, hwrote⟩ := wroteBack_clkDisable hr hg
    cases hu.symm.trans e
    exact hwrote.answered.1
  | clkEnabled a =>
    simp only [commandFailure] at hk
    split at hk
    next => cases hk
    next g hg =>
      rw [exec_clkEnabled hr hg] at e
      cases e
      rfl
  | _ => cases hk

/-! The failures of each operation -/

/-- Operation `i` can fail with `k`: on its command word, or past that check in RESOLVE and SETTLE_WAIT alone (R202 to
R205). -/
inductive FailsWith (c : Config) : Instr → Failure → Prop where
  | command {i : Instr} {k : Failure} (h : commandFailure c i = some k) : FailsWith c i k
  | unknownMultiplexer (a : Word) : FailsWith c (.resolve a) .badArgument
  | overflow (a : Word) : FailsWith c (.resolve a) .arithmeticOverflow
  | timeout : FailsWith c .settleWait .timeout

/-- The status of an operation is 0, or the code of a failure that the operation has (R201). -/
theorem exec_status {i : Instr} {s t : State} (hr : s.resetIn = none) (e : exec i s = .next t) :
    t.status = 0#3 ∨ ∃ k, FailsWith s.cfg i k ∧ t.status = k.code := by
  cases hk : commandFailure s.cfg i with
  | some k =>
    rw [exec_of_commandFailure hr hk] at e
    cases e
    exact .inr ⟨k, .command hk, rfl⟩
  | none =>
    by_cases hresolve : ∃ a, i = .resolve a
    · obtain ⟨a, rfl⟩ := hresolve
      have ha : a.toNat < s.cfg.nNodes := by
        by_contra ha
        simp [commandFailure, nodeId?, ha] at hk
      rcases status_of_resolve hr ha e with h | h | h
      · exact .inl h
      · exact .inr ⟨_, .unknownMultiplexer a, h⟩
      · exact .inr ⟨_, .overflow a, h⟩
    · by_cases hsettle : i = .settleWait
      · subst hsettle
        exact (status_of_settleWait hr e).imp_right fun h => ⟨_, .timeout, h⟩
      · exact .inl (status_of_passed hr hk (not_exists.mp hresolve) hsettle e)

/-- A failure past the check of the command word is one of an operation that writes neither a register nor the table. -/
theorem FailsWith.command_or_reads {c : Config} {i : Instr} {k : Failure} (h : FailsWith c i k) :
    commandFailure c i = some k ∨ (¬ writes i ∧ ∀ a b, i ≠ .oscSet a b) := by
  cases h with
  | command h => exact .inl h
  | unknownMultiplexer a => exact .inr ⟨id, by simp⟩
  | overflow a => exact .inr ⟨id, by simp⟩
  | timeout => exact .inr ⟨id, by simp⟩

/-- Settles O30: a failure is raised before the operation's first transfer, or in an operation that only reads. -/
theorem failuresLeaveNoPartialEffect : Obligations.FailuresLeaveNoPartialEffect := by
  intro i s t hr e hfailed
  obtain ⟨k, hk, -⟩ := (exec_status hr e).resolve_left hfailed
  rcases hk.command_or_reads with hk | ⟨hwrites, hosc⟩
  · rw [exec_of_commandFailure hr hk] at e
    cases e
    exact ⟨rfl, [], (List.append_nil _).symm, by simp⟩
  · exact ⟨exec_keeps_osc hosc hr e, exec_issuedAll (fun _ _ _ => rfl) (fun hw => absurd hw hwrites) e⟩

/-- The command word fails with a bad argument, or a gate operation with an unsupported capability (R202, R204); that of
SETTLE_WAIT never fails. -/
theorem commandFailure_kind {c : Config} {i : Instr} {k : Failure} (h : commandFailure c i = some k) :
    (k = .badArgument ∧ i ≠ .settleWait) ∨
      (k = .unsupportedCapability ∧ ∃ a, i = .clkEnable a ∨ i = .clkDisable a ∨ i = .clkEnabled a) := by
  cases i with
  | clkEnable a | clkDisable a | clkEnabled a =>
    simp only [commandFailure] at h
    split at h <;> cases h
    next hg =>
      rcases gateOperand_error.mp hg with ⟨-, rfl⟩ | ⟨-, -, rfl⟩
      · exact .inl ⟨rfl, by simp⟩
      · exact .inr ⟨rfl, a, by simp⟩
  | resolve a | oscSet a b | pllLocked a | pllBypassed a | statClear a =>
    simp only [commandFailure] at h
    split at h <;> cases h
    exact .inl ⟨rfl, by simp⟩
  | settleWait => cases h
  | _ =>
    cases h
    exact .inl ⟨rfl, by simp⟩

/-- Settles O31, failure by failure. -/
theorem failureKindsByOperation : Obligations.FailureKindsByOperation := by
  intro i s t hr e
  rcases exec_status hr e with h0 | ⟨k, hk, hstatus⟩
  · simp [h0]
  · rw [hstatus]
    cases hk with
    | command hk =>
      rcases commandFailure_kind hk with ⟨rfl, hi⟩ | ⟨rfl, a, hi⟩
      · simp [Failure.code, hi]
      · refine ⟨by simp [Failure.code], fun _ => ⟨a, hi⟩, by simp [Failure.code], by simp [Failure.code]⟩
    | unknownMultiplexer a => simp [Failure.code]
    | overflow a => simp [Failure.code]
    | timeout => simp [Failure.code]

end Sys2Proof.Machine
end

section
/-!
SUPPORT. Every operation ends (60_exceptions.md R200, R219), reset during it included: a walk of RESOLVE over a
well-formed topology is not stuck (O10). And the block that has nothing to do (R218; O7).
-/

namespace Sys2Proof.Machine

/-- The basic updates of every operation keep the number of oscillators. -/
theorem stable_oscLength (c : Config) (i : Instr) (n : Nat) : Stable c i fun u => u.cfg = c ∧ u.osc.length = n where
  cfg _ h := h.1
  poll s h := by simpa using h
  countdown _ _ _ h := h
  read _ _ _ h := h
  write s a v _ _ h := by simpa using h
  rmw _ _ h := h
  acc _ _ h := h
  sp _ _ h := h
  stk _ _ h := h
  iter _ _ h := h
  osc _ _ _ _ _ h := by simpa using h

/-- The multiplexer step that goes on does so to a node of the menu. -/
theorem Stable.selectParent_mem {c : Config} {i : Instr} {P : State → Prop} (st : Stable c i P) {s : State}
    {mux : Field} {menu : Menu} (ha : mux.addr ∈ blockAddresses c) (h : P s) :
    (Machine.selectParent mux menu s).Sat P fun m => m ∈ menu.map Prod.snd :=
  Res.Sat.andThen (st.readField ha h) fun v s hs _ => by
    split
    next => exact hs
    next m hm => exact ⟨hs, mem_of_menuLookup hm⟩

/-- The register of a node's multiplexer is among the block's addresses. -/
theorem muxAddr_mem {c : Config} {n : Nat} {node : Node} {mux : Field} (hn : c.topo[n]? = some node)
    (hmux : nodeMux node = some mux) : mux.addr ∈ blockAddresses c := by
  refine nodeAddress_mem hn ?_
  obtain ⟨p, menu, numer, denom, rfl⟩ | ⟨menu, div, gate, rfl⟩ := nodeMux_eq_some.mp hmux <;>
    simp [nodeAddresses, ratioAddresses]

/-- What follows a part of a walk ends, if it does from every result that the part can have. -/
theorem Res.Sat.thenWalk_ends {α : Type} {P : State → Prop} {Q : α → Prop} {r : Res α} {k : α → State → Walk}
    (h : r.Sat P Q) (hk : ∀ a s, P s → Q a → ∃ r', k a s = .done r') : ∃ r', r.thenWalk k = .done r' := by
  cases r with
  | ok a s => exact hk a s h.1 h.2
  | failed f s => exact ⟨_, rfl⟩
  | resetHit s => exact ⟨_, rfl⟩

/-- A walk over a well-formed topology, from a node whose paths have at most `k` edges, comes to a result. -/
theorem resolveNode_ends {c : Config} (hwf : c.wf = true) (k n : Nat) (hn : n < c.nNodes)
    (hk : c.pathsWithin k n = true) {s : State} (hc : s.cfg = c) (hosc : s.osc.length = c.nOsc) :
    ∃ r, resolveNode (k + 1) n s = .done r := by
  induction k using Nat.strong_induction_on generalizing n s with
  | _ k ih =>
    subst hc
    obtain ⟨node, hnode⟩ : ∃ node, s.cfg.topo[n]? = some node := ⟨_, List.getElem?_eq_getElem hn⟩
    cases hmux : nodeMux node with
    | none =>
      obtain ⟨i, rfl⟩ := nodeMux_eq_none.mp hmux
      exact ⟨_, resolveNode_osc hnode (List.getElem?_eq_getElem (hosc ▸ oscIndex_lt hwf hnode))⟩
    | some mux =>
      rw [resolveNode_mux hnode hmux]
      have hstep := (stable_oscLength s.cfg (.resolve 0#32) s.cfg.nOsc).selectParent_mem (s := s.visit n)
        (menu := node.menu) (muxAddr_mem hnode hmux) ⟨rfl, hosc⟩
      refine hstep.thenWalk_ends fun m u hu hm => ?_
      have hedge := mem_parents hnode hm
      obtain ⟨j, rfl, hj⟩ := pathsWithin_parent hk hedge
      obtain ⟨r, hr⟩ := ih j (Nat.lt_succ_self j) m (parent_lt hwf hedge) hj (s := u.descend) hu.1 hu.2
      exact ⟨_, hr ▸ Walk.thenStage_done r _⟩

/-- Settles O10: RESOLVE's walk ends, and every other operation is total by its definition. -/
theorem everyOperationEnds : Obligations.EveryOperationEnds := by
  intro i s hwf hosc
  cases i with
  | resolve a =>
    by_cases ha : a.toNat < s.cfg.nNodes
    · obtain ⟨r, hwalk⟩ := resolveNode_ends hwf s.cfg.maxDepth a.toNat ha (pathsWithin_maxDepth hwf ha)
        (s := s.atRequest) rfl hosc
      exact ⟨r.conclude, by rw [exec_resolve ha, hwalk, Walk.outcome, finish_eq]⟩
    · refine ⟨(Res.failed .badArgument s).conclude, ?_⟩
      simp only [exec, execResolve, nodeId?, if_neg ha, finish_eq]
  | _ => exact ⟨_, rfl⟩

/-- In IDLE with nothing pending the step leaves the state as it is (R218). -/
theorem step_of_nothing {s : State} (hwf : s.cfg.wf = true) (hp : s.phase = .idle) (hi : s.inputs = []) :
    step s = .next s := by
  simp only [step, State.guardedAdvance, hwf, if_true, State.advance, hp, hi]

/-- Settles O7. -/
theorem idleBlockDoesNothing : Obligations.IdleBlockDoesNothing := fun _ => step_of_nothing

end Sys2Proof.Machine
end

section
/-!
SUPPORT. Reset (70_reset_and_hazards.md R241 to R243): of an IDLE block (O51), and during an operation (O52). A run that
reset ends is followed beside the run of the same operation without the reset: part by part, the two are in the same
state until reset comes, and from then on the other run only adds to the events issued so far.
-/

namespace Sys2Proof.Machine

/-- Settles O51: the step takes the reset. -/
theorem resetLoadsTheDefaults : Obligations.ResetLoadsTheDefaults :=
  ⟨rfl, rfl, fun _ _ hwf hp hi => ⟨_, step_of_input hwf hp hi, rfl, rfl, rfl, .of_mem rfl rfl, rfl, rfl⟩⟩

/-! What a transfer makes of states that are the same to the clock hardware -/

theorem SameHardware.refl (s : State) : SameHardware s s := ⟨rfl, rfl, rfl, rfl, rfl⟩

theorem SameHardware.trans {s t u : State} (h : SameHardware s t) (h' : SameHardware t u) : SameHardware s u :=
  ⟨h.cfg.trans h'.cfg, h.mem.trans h'.mem, h.life.trans h'.life, h.disturbed.trans h'.disturbed, h.hw.trans h'.hw⟩

theorem SameHardware.sameSurroundings {s t : State} (h : SameHardware s t) : SameSurroundings s t :=
  ⟨.of_mem h.cfg.symm h.mem.symm, h.life.symm, h.hw.symm⟩

theorem SameHardware.setWord {s t : State} (h : SameHardware s t) (a v : Word) :
    SameHardware (s.setWord a v) (t.setWord a v) :=
  ⟨h.cfg, by simp [h.mem], h.life, h.disturbed, h.hw⟩

theorem SameHardware.storeReg {s t : State} (h : SameHardware s t) (a v : Word) :
    SameHardware (s.storeReg a v) (t.storeReg a v) := by
  simp only [State.storeReg, h.cfg, State.word_congr h.mem]
  split
  · exact h.setWord a _
  · exact h.setWord a v

theorem SameHardware.clearLatches {s t : State} (h : SameHardware s t) (v : Word) :
    SameHardware (s.clearLatches v) (t.clearLatches v) := by
  simp only [State.clearLatches, h.cfg, State.word_congr h.mem]
  exact h.setWord _ _

theorem SameHardware.writeReg {s t : State} (h : SameHardware s t) (a v : Word) :
    SameHardware (s.writeReg a v) (t.writeReg a v) := by
  have hmem : (s.writeReg a v).mem = (t.writeReg a v).mem := by
    simp only [State.writeReg, h.cfg]
    split
    · exact ((h.storeReg a v).clearLatches v).mem
    · exact (h.storeReg a v).mem
  exact ⟨by simp [h.cfg], hmem, by simp [h.life], rfl, by simp [h.hw]⟩

theorem SameHardware.afterTransfer {s t : State} (h : SameHardware s t) (e : Event) :
    SameHardware (afterTransfer s e) (afterTransfer t e) := by
  cases e with
  | rd a w => exact h.pollHw
  | wr a v => exact h.pollHw.writeReg a v

theorem SameHardware.afterTransfers {s t : State} (h : SameHardware s t) (es : List Event) :
    SameHardware (afterTransfers s es) (afterTransfers t es) := by
  induction es generalizing s t with
  | nil => exact h
  | cons e es ih => exact ih (h.afterTransfer e)

/-! The same state with reset coming -/

/-- The state with reset coming after `n` further events. -/
def State.resetAfter (s : State) (n : Nat) : State := { s with resetIn := some n }

@[simp] theorem State.resetAfter_cfg (s : State) (n : Nat) : (s.resetAfter n).cfg = s.cfg := rfl

theorem sameHardware_resetAfter (s : State) (n : Nat) : SameHardware (s.resetAfter n) s := ⟨rfl, rfl, rfl, rfl, rfl⟩

/-- A state with reset coming is one without, and the coming reset. -/
theorem State.resetAfter_of_resetIn {s : State} {k : Nat} (h : s.resetIn = some k) :
    { s with resetIn := none }.resetAfter k = s := by
  rw [State.resetAfter, ← h]

/-- A coming reset does not matter to the hardware. -/
theorem State.pollHw_resetAfter (s : State) (n : Nat) : (s.resetAfter n).pollHw = s.pollHw.resetAfter n := by
  obtain ⟨-, hm, hl, hd, -⟩ := (sameHardware_resetAfter s n).pollHw
  rw [State.pollHw_eq (s.resetAfter n), hm, hl, hd]
  conv_rhs => rw [State.pollHw_eq s]
  rfl

theorem State.storeReg_resetAfter (s : State) (a v : Word) (n : Nat) :
    (s.resetAfter n).storeReg a v = (s.storeReg a v).resetAfter n := by
  unfold State.storeReg
  rw [State.resetAfter_cfg]
  cases isStatusReg s.cfg a <;> rfl

/-- Nor to a write. -/
theorem State.writeReg_resetAfter (s : State) (a v : Word) (n : Nat) :
    (s.resetAfter n).writeReg a v = (s.writeReg a v).resetAfter n := by
  simp only [State.writeReg, State.storeReg_resetAfter, State.resetAfter_cfg]
  by_cases ha : a = s.cfg.statclrAddr
  · rw [if_pos ha, if_pos ha]
    rfl
  · rw [if_neg ha, if_neg ha]
    rfl

/-! A run that reset ends, beside the run without the reset -/

/-- A part that began in `s`, with no reset coming, has issued the events `es` and got to `u`; the register space and
the hardware are as those events left them. -/
structure Reached (s : State) (es : List Event) (u : State) : Prop where
  resetIn : u.resetIn = none
  issued : Issued s u es
  hardware : SameHardware (afterTransfers s es) u

theorem Reached.trans {s u v : State} {es es' : List Event} (h : Reached s es u) (h' : Reached u es' v) :
    Reached s (es ++ es') v where
  resetIn := h'.resetIn
  issued := h.issued.append h'.issued
  hardware := by
    rw [afterTransfers_append]
    exact (h.hardware.afterTransfers es').trans h'.hardware

theorem Reached.refl {s : State} (h : s.resetIn = none) : Reached s [] s :=
  ⟨h, (List.append_nil _).symm, .refl s⟩

/-- A part that got to `u` goes on from there, with no reset coming, to the result `r`, or it is stuck. -/
inductive Onward (u : State) {α : Type} : Option (Res α) → Prop where
  | stuck : Onward u none
  | ok {a : α} {v : State} {es : List Event} (hr : v.resetIn = none) (h : Issued u v es) : Onward u (some (.ok a v))
  | failed {k : Failure} {v : State} {es : List Event} (hr : v.resetIn = none) (h : Issued u v es) :
      Onward u (some (.failed k v))

theorem Onward.after {α : Type} {s u : State} {es : List Event} {r : Option (Res α)} (he : Issued s u es)
    (h : Onward u r) : Onward s r := by
  cases h with
  | stuck => exact .stuck
  | ok hr h => exact .ok hr (he.append h)
  | failed hr h => exact .failed hr (he.append h)

theorem Onward.thenPart {α β : Type} {u : State} {r : Option (Res α)} {k : α → State → Option (Res β)}
    (h : Onward u r) (hk : ∀ a v, v.resetIn = none → Onward v (k a v)) : Onward u (thenPart r k) := by
  cases h with
  | stuck => exact .stuck
  | ok hr h => exact (hk _ _ hr).after h
  | failed hr h => exact .failed hr h

/-- A part was run from `s` twice, first with reset coming after `n` events, and then without. The first run was cut
short by the reset, where the second went on; or else it came to what the second came to, reset still coming. -/
inductive Cut (s : State) (n : Nat) {α : Type} : Option (Res α) → Option (Res α) → Prop where
  | stuck : Cut s n none none
  | ok {a : α} {u : State} {es : List Event} {m : Nat} (h : Reached s es u) (hn : es.length + m = n) :
      Cut s n (some (.ok a (u.resetAfter m))) (some (.ok a u))
  | failed {k : Failure} {u : State} {es : List Event} {m : Nat} (h : Reached s es u) (hn : es.length + m = n) :
      Cut s n (some (.failed k (u.resetAfter m))) (some (.failed k u))
  | reset {u : State} {es : List Event} {r : Option (Res α)} (h : Reached s es u) (hn : es.length = n)
      (hr : Onward u r) : Cut s n (some (.resetHit (u.resetAfter 0))) r

theorem Cut.after {α : Type} {s u : State} {es : List Event} {n m : Nat} {r r' : Option (Res α)} (hu : Reached s es u)
    (hn : es.length + m = n) (h : Cut u m r r') : Cut s n r r' := by
  subst hn
  cases h with
  | stuck => exact .stuck
  | ok h hm => exact .ok (hu.trans h) (by rw [List.length_append, Nat.add_assoc, hm])
  | failed h hm => exact .failed (hu.trans h) (by rw [List.length_append, Nat.add_assoc, hm])
  | reset h hm hr => exact .reset (hu.trans h) (by rw [List.length_append, hm]) hr

theorem Cut.onward {α : Type} {s : State} {n : Nat} {r r' : Option (Res α)} (h : Cut s n r r') : Onward s r' := by
  cases h with
  | stuck => exact .stuck
  | ok h _ => exact .ok h.resetIn h.issued
  | failed h _ => exact .failed h.resetIn h.issued
  | reset h _ hr => exact hr.after h.issued

/-- Reset, whenever it comes, cuts the part `f` short and does nothing else to it. -/
def Resettable {α : Type} (f : State → Option (Res α)) : Prop :=
  ∀ s n, s.resetIn = none → Cut s n (f (s.resetAfter n)) (f s)

/-- An update that makes no transfer, and that neither the clock hardware nor a reset can tell. -/
structure Unseen (g : State → State) : Prop where
  resetAfter : ∀ s n, g (s.resetAfter n) = (g s).resetAfter n := by intros; rfl
  resetIn : ∀ s, (g s).resetIn = s.resetIn := by intros; rfl
  events : ∀ s, (g s).events = s.events := by intros; rfl
  hardware : ∀ s, SameHardware s (g s) := by intros; exact ⟨rfl, rfl, rfl, rfl, rfl⟩

theorem Unseen.reached {g : State → State} (hg : Unseen g) {s : State} (h : s.resetIn = none) : Reached s [] (g s) :=
  ⟨(hg.resetIn s).trans h, by simp [Issued, hg.events], hg.hardware s⟩

section
variable {α β : Type}

theorem resettable_stuck : Resettable fun _ => (none : Option (Res α)) := fun _ _ _ => .stuck

theorem resettable_ok (a : α) : Resettable fun s => some (.ok a s) := fun _ n hr => .ok (.refl hr) (Nat.zero_add n)

/-- The same of a value that the static tables give. -/
theorem resettable_ok_cfg (a : Config → α) : Resettable fun s => some (.ok (a s.cfg) s) := fun s =>
  resettable_ok (a s.cfg) s

theorem resettable_failed (k : Failure) : Resettable fun s => (some (.failed k s) : Option (Res α)) := fun _ n hr =>
  .failed (.refl hr) (Nat.zero_add n)

theorem Resettable.comp {f : State → Option (Res α)} {g : State → State} (hf : Resettable f) (hg : Unseen g) :
    Resettable fun s => f (g s) := by
  intro s n hr
  dsimp only
  rw [hg.resetAfter s n]
  exact (hf (g s) n ((hg.resetIn s).trans hr)).after (hg.reached hr) (Nat.zero_add n)

/-- What follows a part runs with what the part left of the count to reset, or only in the run without the reset. -/
theorem Resettable.thenPart {f : State → Option (Res α)} {k : α → State → Option (Res β)} (hf : Resettable f)
    (hk : ∀ a, Resettable (k a)) : Resettable fun s => thenPart (f s) k := by
  intro s n hr
  dsimp only
  have h := hf s n hr
  revert h
  generalize f (s.resetAfter n) = r
  generalize f s = r'
  intro h
  cases h with
  | stuck => exact .stuck
  | @ok a u es m h hn => exact (hk a u m h.resetIn).after h hn
  | failed h hn => exact .failed h hn
  | reset h hn hr' => exact .reset h hn (hr'.thenPart fun a v hv => (hk a v 0 hv).onward)

theorem Resettable.andThen {f : State → Res α} {k : α → State → Res β} (hf : Resettable fun s => some (f s))
    (hk : ∀ a, Resettable fun s => some (k a s)) : Resettable fun s => some ((f s).andThen k) := by
  simp only [some_andThen]
  exact hf.thenPart hk

/-- A transfer: reset comes before it, or the hardware moves and the event is issued, with the effect `g` of its
kind. -/
theorem resettable_transfer {a : State → α} {e : State → Event} {g : State → State}
    (ha : ∀ s n, a (s.resetAfter n) = a s) (he : ∀ s n, e (s.resetAfter n) = e s)
    (hg : ∀ s n, g (s.resetAfter n) = (g s).resetAfter n) (hevents : ∀ s, (g s).events = s.events)
    (hresetIn : ∀ s, (g s).resetIn = s.resetIn) (heffect : ∀ s, afterTransfer s (e s.pollHw) = g s.pollHw) :
    Resettable fun s => some (s.transferPoint.andThen fun _ s => .ok (a s) ((g s).record (e s))) := by
  intro s n hr
  have hmade : Reached s [e s.pollHw] ((g s.pollHw).record (e s.pollHw)) := by
    refine ⟨by simp [hresetIn, hr], by simp [Issued, hevents], ?_⟩
    rw [afterTransfers_cons, heffect]
    exact ⟨rfl, rfl, rfl, rfl, rfl⟩
  dsimp only
  rw [State.transferPoint_noReset hr, Res.andThen_ok]
  cases n with
  | zero => exact .reset (.refl hr) rfl (.ok hmade.resetIn hmade.issued)
  | succ n =>
    have hpoint : (s.resetAfter (n + 1)).transferPoint = .ok () (s.pollHw.resetAfter n) :=
      congrArg (Res.ok ()) (s.pollHw_resetAfter n)
    rw [hpoint, Res.andThen_ok, ha, he, hg]
    exact .ok (m := n) hmade (Nat.add_comm 1 n)

end

/-! The parts of the operations -/

theorem resettable_read32 (a : Word) : Resettable fun s => some (read32 a s) :=
  resettable_transfer (a := fun s => s.readReg a) (e := fun s => .rd a (s.readReg a)) (g := id)
    (fun _ _ => rfl) (fun _ _ => rfl) (fun _ _ => rfl) (fun _ => rfl) (fun _ => rfl) fun _ => rfl

theorem resettable_write32 (a v : Word) : Resettable fun s => some (write32 a v s) :=
  resettable_transfer (a := fun _ => ()) (e := fun _ => .wr a v) (g := fun s => s.writeReg a v)
    (fun _ _ => rfl) (fun _ _ => rfl) (fun s n => s.writeReg_resetAfter a v n) (fun s => s.writeReg_events a v)
    (fun s => s.writeReg_resetIn a v) fun _ => rfl

/-- `set_bits32` and `clear_bits32` (20_memory.md R55, R56). -/
theorem resettable_readModifyWrite (a : Word) (f : Word → Word) :
    Resettable fun s => some ((read32 a s).andThen fun w s => write32 a (f w) { s with rmw := w }) :=
  (resettable_read32 a).andThen fun w => (resettable_write32 a (f w)).comp (g := fun s => { s with rmw := w }) {}

theorem resettable_readField (f : Field) : Resettable fun s => some (readField f s) :=
  (resettable_read32 f.addr).andThen fun w => resettable_ok (extract w f)

theorem resettable_selectParent (mux : Field) (menu : Menu) : Resettable fun s => some (selectParent mux menu s) :=
  (resettable_readField mux).andThen fun v => by
    cases menuLookup menu v.toNat with
    | none => exact resettable_failed _
    | some m => exact resettable_ok m

theorem resettable_pllStage (fp rawN rawD : Word) : Resettable fun s => some (pllStage fp rawN rawD s) := by
  simp only [pllStage]
  split
  · exact (resettable_failed _).comp (g := fun s => s.setAcc _) {}
  · exact (resettable_ok _).comp (g := fun s => s.setAcc _) {}

theorem resettable_derivedStage (fp rawR : Word) : Resettable fun s => some (derivedStage fp rawR s) :=
  (resettable_ok _).comp (g := fun s => s.setAcc _) {}

theorem resettable_nodeStage (node : Node) (fp : Word) : Resettable fun s => some (nodeStage node fp s) := by
  cases node with
  | osc i => exact resettable_ok fp
  | pll p mux menu numer denom =>
    exact (resettable_readField numer).andThen fun rawN => (resettable_readField denom).andThen fun rawD =>
      resettable_pllStage fp rawN rawD
  | derived mux menu div gate =>
    exact (resettable_readField div).andThen fun rawR => resettable_derivedStage fp rawR

/-- The walk of RESOLVE, by induction on its fuel (R111). -/
theorem resettable_resolveNode (fuel n : Nat) : Resettable fun s => (resolveNode fuel n s).result? := by
  induction fuel generalizing n with
  | zero => exact resettable_stuck
  | succ fuel ih =>
    have above (node : Node) (mux : Field) :
        Resettable fun s => ((selectParent mux node.menu (s.visit n)).thenWalk fun m s =>
          (resolveNode fuel m s.descend).thenStage fun fp s => nodeStage node fp s.ascend).result? := by
      simp only [result?_thenWalk, result?_thenStage]
      exact ((resettable_selectParent mux node.menu).comp (g := fun s => s.visit n) {}).thenPart fun m =>
        ((ih m).comp (g := State.descend) {}).thenPart fun fp =>
          (resettable_nodeStage node fp).comp (g := State.ascend) {}
    intro s k hr
    cases hn : s.cfg.topo[n]? with
    | none =>
      simp only [resolveNode_noSuchNode (s := s.resetAfter k) hn, resolveNode_noSuchNode hn]
      exact .stuck
    | some node =>
      cases hmux : nodeMux node with
      | some mux =>
        simp only [resolveNode_mux (s := s.resetAfter k) hn hmux, resolveNode_mux hn hmux]
        exact above node mux s k hr
      | none =>
        obtain ⟨i, rfl⟩ := nodeMux_eq_none.mp hmux
        cases ho : s.osc[i]? with
        | none =>
          simp only [resolveNode_noSuchOscillator (s := s.resetAfter k) hn ho, resolveNode_noSuchOscillator hn ho]
          exact .stuck
        | some o =>
          simp only [resolveNode_osc (s := s.resetAfter k) hn ho, resolveNode_osc hn ho]
          exact (resettable_ok o.freq).comp (g := fun s => s.visit n) {} s k hr

/-- The poll loop of SETTLE_WAIT, by induction on the reads permitted (R171). -/
theorem resettable_settleLoop (n : Nat) : Resettable fun s => some (settleLoop n s) := by
  induction n with
  | zero => exact resettable_failed _
  | succ n ih =>
    have next (w : Word) : Resettable fun s =>
        some (if w.getLsbD s.cfg.busyBit then settleLoop n s.countRead else .ok 0#32 s.countRead) := by
      intro s k hr
      cases hw : w.getLsbD s.cfg.busyBit with
      | true =>
        simp only [State.resetAfter_cfg, hw, if_true]
        exact ih.comp (g := State.countRead) {} s k hr
      | false =>
        simp only [State.resetAfter_cfg, hw, Bool.false_eq_true, if_false]
        exact (resettable_ok 0#32).comp (g := State.countRead) {} s k hr
    exact fun s => (resettable_read32 s.cfg.statAddr).andThen next s

/-! Operations -/

/-- Of two ends of an operation begun in `s`, the first, where reset was coming after `n` events, is what `Cut` makes of
the second. -/
def CutOutcome (s : State) (n : Nat) (o o' : Host.Outcome State Fault Refusal) : Prop :=
  ∀ t, o = .next t → ∃ r r', Cut s n (some r) r' ∧ t = r.conclude ∧
    ∀ u, o' = .next u → ∃ x, r' = some x ∧ u = x.conclude

theorem Cut.finish {s : State} {n : Nat} {r r' : Res Word} (h : Cut s n (some r) (some r')) :
    CutOutcome s n (finish r) (finish r') := by
  rintro _ ⟨⟩
  exact ⟨r, some r', h, rfl, by rintro _ ⟨⟩; exact ⟨r', rfl, rfl⟩⟩

theorem Cut.outcome {s : State} {n : Nat} {w w' : Walk} (h : Cut s n w.result? w'.result?) :
    CutOutcome s n w.outcome w'.outcome := by
  intro t e
  cases w with
  | stuck f => cases e
  | done r =>
    cases e
    refine ⟨r, w'.result?, h, rfl, fun u e' => ?_⟩
    cases w' with
    | stuck f => cases e'
    | done r' => cases e'; exact ⟨r', rfl, rfl⟩

/-- Reset cuts every operation short and does nothing else to it before it ends. -/
theorem exec_cut (i : Instr) {s : State} (n : Nat) (hr : s.resetIn = none) :
    CutOutcome s n (exec i (s.resetAfter n)) (exec i s) := by
  have fails (k : Failure) : Cut s n (some (.failed k (s.resetAfter n))) (some (.failed k s : Res Word)) :=
    resettable_failed k s n hr
  cases i with
  | resolve a =>
    simp only [exec, execResolve, State.resetAfter_cfg]
    split
    · exact (fails _).finish
    · exact ((resettable_resolveNode _ _).comp (g := State.atRequest) {} s n hr).outcome
  | oscSet a b =>
    refine Cut.finish ?_
    simp only [State.resetAfter_cfg]
    split
    · exact fails _
    · exact (resettable_ok 0#32).comp (g := fun s => s.setOscFreq _ b) {} s n hr
  | pllLocked a =>
    refine Cut.finish ?_
    split
    · exact fails _
    · rename_i p _
      exact (resettable_read32 s.cfg.statusAddr).andThen
        (fun w => resettable_ok_cfg fun c => boolWord (w.getLsbD (c.lockedBit.get p))) s n hr
  | pllBypassed a =>
    refine Cut.finish ?_
    split
    · exact fails _
    · rename_i p _
      have second (x : Word) : Resettable fun s => some ((read32 s.cfg.bypassAddr s).andThen fun y s =>
          .ok (boolWord (x.getLsbD s.cfg.safemodeBit || y.getLsbD (s.cfg.bypassBit.get p))) s) := fun s =>
        (resettable_read32 s.cfg.bypassAddr).andThen (fun y => resettable_ok_cfg fun c =>
          boolWord (x.getLsbD c.safemodeBit || y.getLsbD (c.bypassBit.get p))) s
      exact (resettable_read32 s.cfg.ctrlAddr).andThen second s n hr
  | statClear a =>
    refine Cut.finish ?_
    cases hm : maskAllowed s.cfg a with
    | true =>
      simp only [State.resetAfter_cfg, hm, if_true]
      exact (resettable_write32 s.cfg.statclrAddr a).andThen (fun _ => resettable_ok 0#32) s n hr
    | false =>
      simp only [State.resetAfter_cfg, hm, Bool.false_eq_true, if_false]
      exact fails _
  | clkEnable a =>
    refine Cut.finish ?_
    simp only [State.resetAfter_cfg]
    split
    · exact fails _
    · rename_i g _
      exact (resettable_readModifyWrite g.addr (· ||| bitMask g.bit)).andThen (fun _ => resettable_ok 0#32) s n hr
  | clkDisable a =>
    refine Cut.finish ?_
    simp only [State.resetAfter_cfg]
    split
    · exact fails _
    · rename_i g _
      exact (resettable_readModifyWrite g.addr (· &&& ~~~(bitMask g.bit))).andThen (fun _ => resettable_ok 0#32) s n hr
  | clkEnabled a =>
    refine Cut.finish ?_
    simp only [State.resetAfter_cfg]
    split
    · exact fails _
    · rename_i g _
      exact (resettable_read32 g.addr).andThen (fun w => resettable_ok (boolWord (w.getLsbD g.bit))) s n hr
  | settleWait =>
    exact ((resettable_settleLoop s.cfg.settleBound).comp (g := fun s => { s with iter := 0#32 }) {} s n hr).finish
  | reserved0 => exact (fails _).finish
  | reservedA => exact (fails _).finish
  | reservedB => exact (fails _).finish
  | reservedC => exact (fails _).finish
  | reservedD => exact (fails _).finish
  | reservedE => exact (fails _).finish
  | reservedF => exact (fails _).finish

/-- The end of a run with reset coming is a reset of the state it got to, and its events are the first ones of the run
without the reset. -/
theorem Cut.conclude {s : State} {n : Nat} {r : Res Word} {r' : Option (Res Word)} (h : Cut s n (some r) r') :
    ∃ es u, Reached s es u ∧ r.conclude = u.blockReset ∧ es.length ≤ n ∧
      ∀ x all, r' = some x → Issued s x.conclude all → es = all.take n := by
  have whole {es all : List Event} {u v : State} (hu : Issued s u es) (hv : Issued s v all)
      (he : v.events = u.events) (hn : es.length ≤ n) : es = all.take n := by
    rw [hv.unique (he.trans hu), List.take_of_length_le hn]
  cases h with
  | @ok a u es m h hn =>
    refine ⟨es, u, h, rfl, by omega, ?_⟩
    rintro _ all ⟨⟩ hall
    rw [Res.conclude_ok a h.resetIn] at hall
    exact whole h.issued hall rfl (by omega)
  | @failed k u es m h hn =>
    refine ⟨es, u, h, rfl, by omega, ?_⟩
    rintro _ all ⟨⟩ hall
    rw [Res.conclude_failed k h.resetIn] at hall
    exact whole h.issued hall rfl (by omega)
  | @reset u es _ h hn hr =>
    have first {es' all : List Event} {v w : State} (hv : Issued u v es') (hw : Issued s w all)
        (he : w.events = v.events) : es = all.take n := by
      rw [hw.unique (he.trans (h.issued.append hv)), ← hn, List.take_left]
    refine ⟨es, u, h, rfl, hn.le, ?_⟩
    rintro x all rfl hall
    cases hr with
    | ok hv hissued =>
      rw [Res.conclude_ok _ hv] at hall
      exact first hissued hall rfl
    | failed hv hissued =>
      rw [Res.conclude_failed _ hv] at hall
      exact first hissued hall rfl

/-- From `s` to `t` reset ended the operation `i` after at most `k` events, with no response. -/
def EndedByReset (i : Instr) (k : Nat) (s t : State) : Prop :=
  t.resp = none ∧ t.phase = .idle ∧ t.osc = s.cfg.oscDefault ∧ t.cfg = s.cfg ∧ t.resetIn = none ∧
    ∃ es, Issued s t es ∧ es.length ≤ k ∧ SameSurroundings (afterTransfers s es) t ∧
      ∀ (u : State) (all : List Event), exec i { s with resetIn := none } = .next u → Issued s u all →
        es = all.take k

theorem exec_endedByReset {i : Instr} {s t : State} {k : Nat} (hr : s.resetIn = some k) (e : exec i s = .next t) :
    EndedByReset i k s t := by
  have hs : { s with resetIn := none }.resetAfter k = s := State.resetAfter_of_resetIn hr
  obtain ⟨r, r', hcut, rfl, hall⟩ := exec_cut i (s := { s with resetIn := none }) k rfl t (by rw [hs, e])
  obtain ⟨es, u, hu, hreset, hlen, htake⟩ := hcut.conclude
  rw [hreset]
  have hcfg : u.cfg = s.cfg := by simpa using hu.hardware.cfg.symm
  have hstart : SameHardware s { s with resetIn := none } := ⟨rfl, rfl, rfl, rfl, rfl⟩
  have hsame : SameHardware (afterTransfers s es) u := (hstart.afterTransfers es).trans hu.hardware
  refine ⟨rfl, rfl, by rw [State.blockReset_osc, hcfg], hcfg, rfl, es, hu.issued, hlen,
    hsame.sameSurroundings.trans ⟨.of_mem rfl rfl, rfl, rfl⟩, fun v all ev hissued => ?_⟩
  obtain ⟨x, hx, rfl⟩ := hall v ev
  exact htake x all hx hissued

/-- The run of CLK_ENABLE or CLK_DISABLE that no reset ends reads the gate's register, and then writes it. -/
theorem exec_gateWrite {i : Instr} {s : State} {a : Word} {g : Gate} (hr : s.resetIn = none)
    (hg : gateOperand s.cfg a = .ok g) (hi : i = .clkEnable a ∨ i = .clkDisable a) :
    ∃ t v, exec i s = .next t ∧ Issued s t [.rd g.addr (s.pollHw.readReg g.addr), .wr g.addr v] := by
  obtain rfl | rfl := hi
  · obtain ⟨t, e, h⟩ := wroteBack_clkEnable hr hg
    exact ⟨t, _, e, h.issued⟩
  · obtain ⟨t, e, h⟩ := wroteBack_clkDisable hr hg
    exact ⟨t, _, e, h.issued⟩

/-- Settles O52. Between the halves of CLK_ENABLE and CLK_DISABLE, the one event that reset lets pass is the read. -/
theorem resetEndsAnOperationSilently : Obligations.ResetEndsAnOperationSilently := by
  refine ⟨fun i s t k hr e => exec_endedByReset hr e, fun s a g i hhw hr ha hg hi => ?_⟩
  obtain ⟨t, e⟩ : ∃ t, exec i s = .next t := by obtain rfl | rfl := hi <;> exact ⟨_, rfl⟩
  obtain ⟨hresp, -, -, -, -, es, hissued, -, hsame, htake⟩ := exec_endedByReset hr e
  obtain ⟨u, v, eu, hu⟩ := exec_gateWrite (s := { s with resetIn := none }) rfl (gateOperand_ok.mpr ⟨ha, hg⟩) hi
  obtain rfl := htake u _ eu hu
  obtain ⟨hregs, -, -⟩ := hsame
  have hread : { s with resetIn := none }.pollHw.readReg g.addr = s.readReg g.addr := by
    rw [State.pollHw_of_nil (s := { s with resetIn := none }) hhw]
    rfl
  simp only [hread, List.take_succ_cons, List.take_zero] at hissued hregs
  refine ⟨t, e, hresp, hissued, ?_⟩
  rwa [afterTransfers_cons, afterTransfers_nil, afterTransfer, State.pollHw_of_nil hhw] at hregs

end Sys2Proof.Machine
end
